-- ==== Sys2Proof/Word.lean ====
section
/-!
DEFINITION. The bit-vector types the spec's registers, words and element groups have (00 R4: little-endian, bit 0 least
significant). The helpers over them stand in Machine/Bits.lean.
-/
namespace Sys2Proof

/-- A 64-bit register, address or instruction word. -/
abbrev Word := BitVec 64
/-- One byte of memory. -/
abbrev Byte := BitVec 8
/-- One element group: 32 bytes (00, levels of the build). -/
abbrev Group := BitVec 256

/-- Register numbers of the x, v, k, e and m files (01 R12). -/
abbrev XReg := BitVec 5
abbrev VReg := BitVec 5
abbrev KReg := BitVec 3
abbrev EReg := BitVec 3
abbrev MReg := BitVec 2

/-- The X field of an S-form word and the I32 field of an L-form word (02 R32, R33). -/
abbrev Imm19 := BitVec 19
abbrev Imm32 := BitVec 32

end Sys2Proof
end

