-- ==== Sys2Proof/Config.lean ====
section
/-!
DEFINITION. What one part fixes and the spec leaves open: the free values. Each is an opaque constant with no body, so no
statement can rest on what it is; where it varies from use to use it is applied to a counter held in State (`fresh`).
-/
namespace Sys2Proof.Config

/-- The place of a record in the ROM of the capability table, by its TYPE (20 R361, R362): the spec gives no order. Log 6. -/
opaque romRank : Nat → Nat
/-- The errata of a firmware image, as FWACT appends their records (20 R362, R365), from the chunks of the image by index: identifier, build that fixes it, text. Log 6. -/
opaque imageErrata : List (Nat × List Byte) → List (BitVec 32 × BitVec 32 × List Char)
/-- Signature bytes that the Bamlen product key makes over a message. Log 6. -/
opaque productSignature : List Byte → Nat → Byte
/-- The units that fail the self-test of a boot (19 R346, 20 R348), by number of boots: kind x 2^32 + index, kinds 0 to 5 those of a FENCE record (20
R362), 6 a cluster, 7 the cluster-memory contribution of a core. Log 32. -/
opaque selfTest : Nat → List Nat
/-- Whether the host rejects a host physical address (20 R354). Log 34. -/
opaque hostRejects : Nat → Bool
/-- Value a copy writes from a byte that is both its source and destination under two virtual addresses (14 R272). Log 9. -/
opaque freeByte : Nat → Byte
/-- Whether an SLH-DSA-SHAKE-256s signature verifies: key (0 Bamlen product key, 1 device identity key, 2 Bamlen debug key),
signed bytes, signature bytes (20 R364, R367, R371). Log 11. -/
opaque signatureOk : Nat → List Byte → List Byte → Bool
/-- The seed written into the key store at manufacture, byte by byte (20 R368), and the SLH-DSA-SHAKE-256s key generation of FIPS 205: public (64) and
private (128) key bytes of a seed. Log 11. -/
opaque seedByte : Nat → Byte
opaque keyGenPublic : List Byte → Nat → Byte
opaque keyGenPrivate : List Byte → Nat → Byte
/-- Signature bytes made with a private identity key over a message (20 R369). Log 11. -/
opaque identitySignature : List Byte → List Byte → Nat → Byte
/-- Whether a firmware image in flash verifies at a boot, by number of boots: stage (1, 2), and whether it is the backup (20 R367 steps 2 and 3). Log 32. -/
opaque flashVerifies : Nat → Nat → Bool → Bool
/-- The scale-out port a packet takes among those that are up, by its destination: a hash of which the spec gives no more (21 R380). Log 13. -/
opaque portHash : Nat → Nat
/-- SHAKE256 of stage 1 (0) or stage 2 (1) of a firmware build, byte by byte (20 R369). Log 11. -/
opaque imageDigest : Nat → Nat → Nat → Byte
/-- SHAKE256 of the bytes of the capability table, byte by byte (20 R369). Log 11. -/
opaque tableDigest : List Byte → Nat → Byte
/-- The fresh DBGNONCE bytes: how many nonces were drawn before, byte (20 R371). Log 11. -/
opaque nonceByte : Nat → Nat → Byte
/-- What a staged image is (20 R364, R365), from its chunks by index: whether every chunk of it is present, whether its signatures
verify at FWACT, its build number. Log 11. -/
opaque imageWhole : List (Nat × List Byte) → Bool
opaque imageSigned : List (Nat × List Byte) → Bool
opaque imageBuild : List (Nat × List Byte) → Nat
/-- Part serial number (20 R361), byte by byte. Log 6. -/
opaque serialByte : Nat → Byte

/-- Whether fma of 0 x infinity with a quiet NaN addend raises NV: IEEE 754-2019, which 03 R66 follows, leaves it to the
implementation. Log 9. -/
opaque fmaQuietInvalid : Bool

end Sys2Proof.Config
end

