-- ==== Sys2Proof/Syntax.lean ====
section
/-!
DEFINITION. The abstract syntax: operand kinds, fabric packets, and Instr, with one constructor for each row of
spec/opcode_table.json. The first 283 constructors are Miolas instructions (chapters 03, 04, 08 to 11, 14, 15, 18, 21); the
others are the operations and events of the table (95): their arguments say what the outside or the schedule decides.
-/
namespace Sys2Proof

/-- Rounding selector RMS (03 R64): dyn is FCSR.RM. -/
inductive Rms where
  | dyn | rne | rtz | rup | rdn
  deriving DecidableEq, Repr

/-- Scopes (11 R251). -/
inductive Scope where
  | lg | co | dl | ch | rt | pk | pd
  deriving DecidableEq, Repr

/-- Formats of a vector element, the tag codes 1 to 12 (07 R142). -/
inductive Fmt where
  | fp64 | fp32 | fp16 | bf16 | t8 | t6 | f4 | k4 | int8 | int16 | int32 | int64
  deriving DecidableEq, Repr

/-- The type field TY (08 R168): a format and the natural-reading bit N. -/
structure Ty where
  fmt : Fmt
  nat : Bool
  deriving DecidableEq, Repr

/-- A mask operand and its zeroing bit Z (02 R36). -/
structure Mask where
  k : KReg
  z : Bool
  deriving DecidableEq, Repr

/-- The second source of a two-source form: a vector register, or an x register when SB = 1 (08 R169). -/
inductive VSrc where
  | vec (r : VReg)
  | scalar (r : XReg)
  deriving DecidableEq, Repr

/-- Predicates of vcmp (08 R175). -/
inductive Pred where
  | eq | ne | lt | le | gt | ge
  deriving DecidableEq, Repr

/-- Operations of reductions, scans and rred (09 R217, 21 R395). -/
inductive ROp where
  | add | min | max | and | or | xor
  deriving DecidableEq, Repr

/-- Types of rred and of reduction windows (21 R395). -/
inductive RTy where
  | i32 | n32 | i64 | n64 | f32 | bf16 | f16
  deriving DecidableEq, Repr

/-- Saliency patterns (08 R188). -/
inductive SalPat where
  | n2m4 | n4m8 | n1m4
  deriving DecidableEq, Repr

/-- The five CSR forms (03 R89). -/
inductive CsrOp where
  | r | w | rw | s | c
  deriving DecidableEq, Repr

/-- Pair opcodes (02 R43), in the order of the pair table. -/
inductive Pop where
  | add | sub | and | or | xor | sll | srl | sra | mul | minI64 | maxI64 | minN64 | maxN64 | sltI64 | sltN64
  | addImm | andImm | orImm | xorImm | sllImm | srlImm | sraImm | li
  | ldI64 | ldI32 | ldN32 | st64 | st32
  | faddF64 | fsubF64 | fmulF64 | faddF32 | fsubF32 | fmulF32
  | vaddI32 | vsubI32 | vaddF32 | vsubF32 | vmulF32 | vmaxF32 | vminF32 | vaddBf16 | vmulBf16 | vand | vor | vxor | vmv
  | vaddF32x | vmulF32x | vldF32 | vstF32
  deriving DecidableEq, Repr

/-- One slot of a P-form word (02 R34). -/
structure Slot where
  pop : Pop
  d : BitVec 5
  a : BitVec 5
  y : BitVec 15
  deriving DecidableEq, Repr

/-- One byte of a remote write: address within the owner, data, and the bits it writes (11 R244: byte and nibble masks). -/
structure MaskedByte where
  addr : Nat
  data : Byte
  mask : Byte
  deriving DecidableEq, Repr

/-- Fabric packets (21 R385 to R393, 22 R398). tid is the sending thread, ep the sweep its packet will be counted by, chan its channel
identifier to the destination; a counted packet that travels on no channel has none. A write carries the 8-byte words that it
poisons (19 R344); a load request is an index list of numbered items, each an address and a size (21 R383), a reply answers items by number, with the
poison of each byte. -/
inductive Packet where
  | write (tid ep : Nat) (chan : Option Nat) (bytes : List MaskedByte) (poison : List Nat)
  | red (tid ep : Nat) (chan : Option Nat) (addr : Nat) (op : ROp) (ty : RTy) (v : Word)
  | openReq (chan : Nat)
  | openReply (chan : Nat) (ok : Bool)
  | flag (chan : Nat) (addr : Nat) (val : Word) (count : BitVec 32) (bto : Nat)
  | flagReport (chan : Nat) (count : BitVec 32)
  | close (chan : Nat) (sent : BitVec 32) (bto : Nat)
  | closeReply (chan : Nat) (miss : BitVec 32)
  | marker (tid ep : Nat) (count : Nat) (bto : Nat)
  | echo (tid ep : Nat) (count miss : Nat)
  | loadReq (items : List (Nat × Nat × Nat))
  | loadReply (items : List (Nat × Option (List (Byte × Bool))))
  deriving DecidableEq, Repr

/-- An access of the host to a register of BAR0 (20 R355): a write of 8 bytes, a read of 8 or 4 bytes. -/
inductive HostAccess where
  | write (v : Word)
  | read (wide : Bool)
  deriving DecidableEq, Repr

/-- Who misses in its TLBs and asks for a walk (18 R317, R318): for a thread, a lane of its core (agents 0 to 7), the access processor (8), the copy
engine (9) or the Welt unit (10) of its cluster. -/
structure Walker where
  agent : Nat
  tid : Nat
  deriving DecidableEq, Repr

/-- What an uncorrectable error hit (19 R343): a clean L2 line that is fetched again; a line of a core's instruction cache or data L1, or an entry of
a TLB or walker cache, that is dropped; a memory word (home address / 8) with its ERRLOG kind; such a word in the store or push buffers of a thread; an
aligned 8-byte word of a register of a thread (file 0 v, 1 k, 2 m, 3 e); a header or window-entry word of the saved image of a parked thread, with its
address; the two copies of access-processor state of a thread, the x register where it is one (0 for any other state). -/
inductive BadStore where
  | refetched
  | cacheLine (core line : Nat)
  | translation (owner base : Nat)
  | buffer (tid word : Nat)
  | image (tid loc : Nat)
  | memory (kind : BitVec 3) (word : Nat)
  | register (tid : Nat) (file : BitVec 2) (reg word : Nat)
  | access (tid : Nat) (reg : BitVec 5)
  deriving DecidableEq, Repr

/-- The operation of an E-class word (02 R39: OP 0x80 to 0xDF), as the window and the lane queues hold it: the rows VADD_FP to
MST of the table with their operands. -/
inductive EOp where
  | vaddFp (ty : Ty) (m : Mask) (rms : Rms) (d a : VReg) (b : VSrc)
  | vsubFp (ty : Ty) (m : Mask) (rms : Rms) (d a : VReg) (b : VSrc)
  | vmulFp (ty : Ty) (m : Mask) (rms : Rms) (d a : VReg) (b : VSrc)
  | vdiv (ty : Ty) (m : Mask) (rms : Rms) (d a : VReg) (b : VSrc)
  | vsqrt (ty : Ty) (m : Mask) (rms : Rms) (d a : VReg)
  | vfma (ty : Ty) (m : Mask) (rms : Rms) (d a : VReg) (b : VSrc)
  | vfnma (ty : Ty) (m : Mask) (rms : Rms) (d a : VReg) (b : VSrc)
  | vminFp (ty : Ty) (m : Mask) (rms : Rms) (d a : VReg) (b : VSrc)
  | vmaxFp (ty : Ty) (m : Mask) (rms : Rms) (d a : VReg) (b : VSrc)
  | vcmpFp (pr : Pred) (ty : Ty) (m : Mask) (d : KReg) (a : VReg) (b : VSrc)
  | vsgn (ty : Ty) (m : Mask) (d a : VReg) (b : VSrc)
  | vsgnn (ty : Ty) (m : Mask) (d a : VReg) (b : VSrc)
  | vsgnx (ty : Ty) (m : Mask) (d a : VReg) (b : VSrc)
  | vscl (inv : Bool) (ty : Ty) (m : Mask) (d a : VReg) (b : EReg)
  | vaddInt (ty : Ty) (m : Mask) (d a : VReg) (b : VSrc)
  | vsubInt (ty : Ty) (m : Mask) (d a : VReg) (b : VSrc)
  | vaddSat (ty : Ty) (m : Mask) (d a : VReg) (b : VSrc)
  | vsubSat (ty : Ty) (m : Mask) (d a : VReg) (b : VSrc)
  | vmulInt (ty : Ty) (m : Mask) (d a : VReg) (b : VSrc)
  | vmulh (ty : Ty) (m : Mask) (d a : VReg) (b : VSrc)
  | vmadd (ty : Ty) (m : Mask) (d a : VReg) (b : VSrc)
  | vminInt (ty : Ty) (m : Mask) (d a : VReg) (b : VSrc)
  | vmaxInt (ty : Ty) (m : Mask) (d a : VReg) (b : VSrc)
  | vcmpInt (pr : Pred) (ty : Ty) (m : Mask) (d : KReg) (a : VReg) (b : VSrc)
  | vsll (ty : Ty) (m : Mask) (d a : VReg) (b : VSrc)
  | vsrl (ty : Ty) (m : Mask) (d a : VReg) (b : VSrc)
  | vsra (ty : Ty) (m : Mask) (d a : VReg) (b : VSrc)
  | vid (ty : Ty) (m : Mask) (d : VReg)
  | vand (m : Mask) (d a : VReg) (b : VSrc)
  | vor (m : Mask) (d a : VReg) (b : VSrc)
  | vxor (m : Mask) (d a : VReg) (b : VSrc)
  | vmv (m : Mask) (d a : VReg)
  | kand (d a b : KReg)
  | kor (d a b : KReg)
  | kxor (d a b : KReg)
  | kandn (d a b : KReg)
  | knot (d a : KReg)
  | kset (d : KReg)
  | vbcast (ty : Ty) (m : Mask) (d : VReg) (a : XReg)
  | vmvx (ty : Ty) (d : XReg) (a : VReg) (b : XReg)
  | vcvt (m : Mask) (rms : Rms) (part : BitVec 4) (dst src : Ty) (d a : VReg)
  | vsegmax (ty : Ty) (k : KReg) (d : EReg) (a : VReg)
  | vsalsel (pat : SalPat) (ty : Ty) (m : Mask) (d : KReg) (a b : VReg)
  | vrngN32 (m : Mask) (d : VReg) (a b : XReg)
  | vld (ty : Ty) (m : Mask) (d : VReg) (a : XReg) (off : Imm19)
  | vst (ty : Ty) (k : KReg) (fl : Bool) (d : VReg) (a : XReg) (off : Imm19)
  | vlds (ty : Ty) (m : Mask) (d : VReg) (a b : XReg) (off : Imm19)
  | vsts (ty : Ty) (k : KReg) (fl : Bool) (d : VReg) (a b : XReg) (off : Imm19)
  | vldx (ty : Ty) (m : Mask) (d : VReg) (a : XReg) (b : VReg) (sh : BitVec 4) (off : BitVec 15)
  | vstx (ty : Ty) (k : KReg) (fl : Bool) (d : VReg) (a : XReg) (b : VReg) (sh : BitVec 4) (off : BitVec 15)
  | vgath (ty : Ty) (m : Mask) (d : VReg) (a : XReg) (b : VReg) (sh : BitVec 5) (re : BitVec 12)
  | vscat (ty : Ty) (k : KReg) (d : VReg) (a : XReg) (b : VReg) (sh : BitVec 5) (re : BitVec 12)
  | vscadd (ty : Ty) (k : KReg) (d : VReg) (a : XReg) (b : VReg) (sh : BitVec 5) (re : BitVec 12)
  | sopen (n : BitVec 2) (a : XReg) (off : Imm19)
  | sadv (n : BitVec 2) (a : XReg)
  | stend (d : XReg) (n : BitVec 2)
  | sclose (n : BitVec 2)
  | fopen (n : BitVec 2) (a : XReg) (off : Imm19)
  | fadv (n : BitVec 2)
  | ftend (d : XReg) (n : BitVec 2)
  | fclose (n : BitVec 2)
  | vgamRd (d : XReg) (a : VReg)
  | vgamWr (d : VReg) (a : XReg)
  | vred (op : ROp) (ty : Ty) (k : KReg) (d : XReg) (a : VReg) (b : XReg)
  | vscan (op : ROp) (ex : Bool) (ty : Ty) (m : Mask) (d a : VReg) (b : XReg)
  | vperm (m : Mask) (d a b : VReg)
  | vslideUp (m : Mask) (d a : VReg) (b : XReg)
  | vslideDn (m : Mask) (d a : VReg) (b : XReg)
  | vcompress (k : KReg) (d a : VReg)
  | kpopc (d : XReg) (a : KReg)
  | kfirst (d : XReg) (a : KReg)
  | plpack (ty : Ty) (k : KReg) (fl : Bool) (p : BitVec 4) (d : VReg) (a : XReg) (b : EReg) (c : XReg)
  | plunpk (m : Mask) (p : BitVec 4) (d : VReg) (a c : XReg)
  | mma (pa pb : BitVec 4) (ser : Bool) (d : MReg) (a b c : XReg)
  | mzero (d : MReg)
  | mld (d : MReg) (a b : XReg) (off : Imm19)
  | mst (d : MReg) (a b : XReg) (off : Imm19)
  deriving DecidableEq, Repr

/-- Instructions and the table's operations and events: one constructor per row of spec/opcode_table.json. -/
inductive Instr where
  /-- ADD (R57): Adds two x registers modulo 2^64 into xD. -/
  | add (d a b : XReg)
  /-- ADD_IMM (R57): Adds a sign-extended 19-bit immediate to xA into xD. -/
  | addImm (d a : XReg) (imm : Imm19)
  /-- ADD_IMM_LONG (R59): L-form add with a sign-extended 32-bit immediate. -/
  | addImmLong (d a : XReg) (imm : Imm32)
  /-- SUB (R57): Subtracts xB from xA modulo 2^64. -/
  | sub (d a b : XReg)
  /-- AND (R57): Bitwise AND of two x registers. -/
  | and (d a b : XReg)
  /-- AND_IMM (R57): Bitwise AND of xA with a sign-extended 19-bit immediate. -/
  | andImm (d a : XReg) (imm : Imm19)
  /-- AND_IMM_LONG (R59): L-form AND with a sign-extended 32-bit immediate. -/
  | andImmLong (d a : XReg) (imm : Imm32)
  /-- OR (R57): Bitwise OR of two x registers. -/
  | or (d a b : XReg)
  /-- OR_IMM (R57): Bitwise OR of xA with a sign-extended 19-bit immediate. -/
  | orImm (d a : XReg) (imm : Imm19)
  /-- OR_IMM_LONG (R59): L-form OR with a sign-extended 32-bit immediate. -/
  | orImmLong (d a : XReg) (imm : Imm32)
  /-- XOR (R57): Bitwise exclusive OR of two x registers. -/
  | xor (d a b : XReg)
  /-- XOR_IMM (R57): Exclusive OR of xA with a sign-extended 19-bit immediate. -/
  | xorImm (d a : XReg) (imm : Imm19)
  /-- XOR_IMM_LONG (R59): L-form exclusive OR with a sign-extended 32-bit immediate. -/
  | xorImmLong (d a : XReg) (imm : Imm32)
  /-- ANDN (R57): xA AND NOT xB. -/
  | andn (d a b : XReg)
  /-- ORN (R57): xA OR NOT xB. -/
  | orn (d a b : XReg)
  /-- XNOR (R57): NOT (xA XOR xB). -/
  | xnor (d a b : XReg)
  /-- SLL (R58): Shifts xA left by xB[5:0]. -/
  | sll (d a b : XReg)
  /-- SLL_IMM (R58): Shifts xA left by an immediate 0-63. -/
  | sllImm (d a : XReg) (sh : BitVec 6)
  /-- SRL (R58): Logical right shift of xA by xB[5:0]. -/
  | srl (d a b : XReg)
  /-- SRL_IMM (R58): Logical right shift of xA by an immediate. -/
  | srlImm (d a : XReg) (sh : BitVec 6)
  /-- SRA (R58): Arithmetic right shift of xA by xB[5:0]. -/
  | sra (d a b : XReg)
  /-- SRA_IMM (R58): Arithmetic right shift of xA by an immediate. -/
  | sraImm (d a : XReg) (sh : BitVec 6)
  /-- ROL (R57): Rotates xA left by xB[5:0]. -/
  | rol (d a b : XReg)
  /-- ROL_IMM (R57): Rotates xA left by an immediate. -/
  | rolImm (d a : XReg) (sh : BitVec 6)
  /-- ROR (R57): Rotates xA right by xB[5:0]. -/
  | ror (d a b : XReg)
  /-- ROR_IMM (R57): Rotates xA right by an immediate. -/
  | rorImm (d a : XReg) (sh : BitVec 6)
  /-- MIN_I64 (R57): Signed minimum of two x registers. -/
  | minI64 (d a b : XReg)
  /-- MIN_I64_IMM (R57): Signed minimum of xA and an immediate. -/
  | minI64Imm (d a : XReg) (imm : Imm19)
  /-- MAX_I64 (R57): Signed maximum of two x registers. -/
  | maxI64 (d a b : XReg)
  /-- MAX_I64_IMM (R57): Signed maximum of xA and an immediate. -/
  | maxI64Imm (d a : XReg) (imm : Imm19)
  /-- MIN_N64 (R57): Natural minimum of two x registers. -/
  | minN64 (d a b : XReg)
  /-- MIN_N64_IMM (R57): Natural minimum of xA and a sign-extended immediate. -/
  | minN64Imm (d a : XReg) (imm : Imm19)
  /-- MAX_N64 (R57): Natural maximum of two x registers. -/
  | maxN64 (d a b : XReg)
  /-- MAX_N64_IMM (R57): Natural maximum of xA and a sign-extended immediate. -/
  | maxN64Imm (d a : XReg) (imm : Imm19)
  /-- SLT_I64 (R57): Writes 1 if xA < xB signed, else 0. -/
  | sltI64 (d a b : XReg)
  /-- SLT_I64_IMM (R57): Writes 1 if xA < immediate signed, else 0. -/
  | sltI64Imm (d a : XReg) (imm : Imm19)
  /-- SLT_N64 (R57): Writes 1 if xA < xB natural, else 0. -/
  | sltN64 (d a b : XReg)
  /-- SLT_N64_IMM (R57): Writes 1 if xA < immediate as natural, else 0. -/
  | sltN64Imm (d a : XReg) (imm : Imm19)
  /-- SEQ (R57): Writes 1 if xA = xB, else 0. -/
  | seq (d a b : XReg)
  /-- SEQ_IMM (R57): Writes 1 if xA equals the immediate, else 0. -/
  | seqImm (d a : XReg) (imm : Imm19)
  /-- ADD_32 (R57): 32-bit add, sign-extended to 64 bits. -/
  | add32 (d a b : XReg)
  /-- ADD_32_IMM (R57): 32-bit add of an immediate, sign-extended. -/
  | add32Imm (d a : XReg) (imm : Imm19)
  /-- SUB_32 (R57): 32-bit subtract, sign-extended. -/
  | sub32 (d a b : XReg)
  /-- SLL_32 (R58): 32-bit left shift by xB[4:0], sign-extended. -/
  | sll32 (d a b : XReg)
  /-- SLL_32_IMM (R58): 32-bit left shift by an immediate, sign-extended. -/
  | sll32Imm (d a : XReg) (sh : BitVec 5)
  /-- SRL_32 (R58): 32-bit logical right shift by xB[4:0], sign-extended. -/
  | srl32 (d a b : XReg)
  /-- SRL_32_IMM (R58): 32-bit logical right shift by an immediate. -/
  | srl32Imm (d a : XReg) (sh : BitVec 5)
  /-- SRA_32 (R58): 32-bit arithmetic right shift by xB[4:0]. -/
  | sra32 (d a b : XReg)
  /-- SRA_32_IMM (R58): 32-bit arithmetic right shift by an immediate. -/
  | sra32Imm (d a : XReg) (sh : BitVec 5)
  /-- MUL (R60): Low 64 bits of the product. -/
  | mul (d a b : XReg)
  /-- MULH_I64 (R60): High 64 bits of the signed product. -/
  | mulhI64 (d a b : XReg)
  /-- MULH_N64 (R60): High 64 bits of the natural product. -/
  | mulhN64 (d a b : XReg)
  /-- MUL_32 (R60): 32-bit product, sign-extended. -/
  | mul32 (d a b : XReg)
  /-- DIV_I64 (R60): Signed division truncating toward zero; no trap on zero divisor. -/
  | divI64 (d a b : XReg)
  /-- DIV_N64 (R60): Natural division truncating toward zero. -/
  | divN64 (d a b : XReg)
  /-- REM_I64 (R60): Signed remainder. -/
  | remI64 (d a b : XReg)
  /-- REM_N64 (R60): Natural remainder. -/
  | remN64 (d a b : XReg)
  /-- CLZ (R61): Counts leading zero bits of xA. -/
  | clz (d a : XReg)
  /-- CTZ (R61): Counts trailing zero bits of xA. -/
  | ctz (d a : XReg)
  /-- POPC (R61): Counts one bits of xA. -/
  | popc (d a : XReg)
  /-- REV8 (R61): Reverses the bytes of xA. -/
  | rev8 (d a : XReg)
  /-- BREV (R61): Reverses the bits of xA. -/
  | brev (d a : XReg)
  /-- SEXT_8 (R61): Sign-extends xA[7:0]. -/
  | sext8 (d a : XReg)
  /-- SEXT_16 (R61): Sign-extends xA[15:0]. -/
  | sext16 (d a : XReg)
  /-- SEXT_32 (R61): Sign-extends xA[31:0]. -/
  | sext32 (d a : XReg)
  /-- ZEXT_8 (R61): Zero-extends xA[7:0]. -/
  | zext8 (d a : XReg)
  /-- ZEXT_16 (R61): Zero-extends xA[15:0]. -/
  | zext16 (d a : XReg)
  /-- ZEXT_32 (R61): Zero-extends xA[31:0]. -/
  | zext32 (d a : XReg)
  /-- SEL (R62): Selects xA if xC is non-zero, else xB. -/
  | sel (d a b c : XReg)
  /-- MADD (R62): xA times xB plus xC modulo 2^64. -/
  | madd (d a b c : XReg)
  /-- LI (R63): Loads a sign-extended 19-bit immediate into xD. -/
  | li (d : XReg) (imm : Imm19)
  /-- LI_LONG (R63): L-form load of a sign-extended 32-bit immediate. -/
  | liLong (d : XReg) (imm : Imm32)
  /-- LIH (R63): Places I32 in xD[63:32], keeping xD[31:0]. -/
  | lih (d : XReg) (imm : Imm32)
  /-- LPC (R63): Writes the PC plus a 19-bit byte offset. -/
  | lpc (d : XReg) (imm : Imm19)
  /-- LPC_LONG (R63): Writes the PC plus a 32-bit byte offset. -/
  | lpcLong (d : XReg) (imm : Imm32)
  /-- FADD_F64 (R65): FP64 add, rounded once. -/
  | faddF64 (rms : Rms) (d a b : XReg)
  /-- FADD_F32 (R65): FP32 add, rounded once. -/
  | faddF32 (rms : Rms) (d a b : XReg)
  /-- FSUB_F64 (R65): FP64 subtract. -/
  | fsubF64 (rms : Rms) (d a b : XReg)
  /-- FSUB_F32 (R65): FP32 subtract. -/
  | fsubF32 (rms : Rms) (d a b : XReg)
  /-- FMUL_F64 (R65): FP64 multiply. -/
  | fmulF64 (rms : Rms) (d a b : XReg)
  /-- FMUL_F32 (R65): FP32 multiply. -/
  | fmulF32 (rms : Rms) (d a b : XReg)
  /-- FDIV_F64 (R65): FP64 divide. -/
  | fdivF64 (rms : Rms) (d a b : XReg)
  /-- FDIV_F32 (R65): FP32 divide. -/
  | fdivF32 (rms : Rms) (d a b : XReg)
  /-- FSQRT_F64 (R65): FP64 square root. -/
  | fsqrtF64 (rms : Rms) (d a : XReg)
  /-- FSQRT_F32 (R65): FP32 square root. -/
  | fsqrtF32 (rms : Rms) (d a : XReg)
  /-- FMA_F64 (R65): FP64 fused multiply-add, rounded once. -/
  | fmaF64 (rms : Rms) (d a b c : XReg)
  /-- FMA_F32 (R65): FP32 fused multiply-add, rounded once. -/
  | fmaF32 (rms : Rms) (d a b c : XReg)
  /-- FMIN_F64 (R68): FP64 minimumNumber. -/
  | fminF64 (d a b : XReg)
  /-- FMIN_F32 (R68): FP32 minimumNumber. -/
  | fminF32 (d a b : XReg)
  /-- FMAX_F64 (R68): FP64 maximumNumber. -/
  | fmaxF64 (d a b : XReg)
  /-- FMAX_F32 (R68): FP32 maximumNumber. -/
  | fmaxF32 (d a b : XReg)
  /-- FEQ_F64 (R68): FP64 equality compare into xD. -/
  | feqF64 (d a b : XReg)
  /-- FEQ_F32 (R68): FP32 equality compare into xD. -/
  | feqF32 (d a b : XReg)
  /-- FLT_F64 (R68): FP64 less-than compare. -/
  | fltF64 (d a b : XReg)
  /-- FLT_F32 (R68): FP32 less-than compare. -/
  | fltF32 (d a b : XReg)
  /-- FLE_F64 (R68): FP64 less-or-equal compare. -/
  | fleF64 (d a b : XReg)
  /-- FLE_F32 (R68): FP32 less-or-equal compare. -/
  | fleF32 (d a b : XReg)
  /-- FCLASS_F64 (R68): Writes the one-hot class mask of an FP64 value. -/
  | fclassF64 (d a : XReg)
  /-- FCLASS_F32 (R68): Writes the one-hot class mask of an FP32 value. -/
  | fclassF32 (d a : XReg)
  /-- FSGN_F64 (R65): FP64 magnitude of a with the sign of b. -/
  | fsgnF64 (d a b : XReg)
  /-- FSGN_F32 (R65): FP32 magnitude of a with the sign of b. -/
  | fsgnF32 (d a b : XReg)
  /-- FSGNN_F64 (R65): FP64 magnitude of a with the opposite sign of b. -/
  | fsgnnF64 (d a b : XReg)
  /-- FSGNN_F32 (R65): FP32 magnitude of a with the opposite sign of b. -/
  | fsgnnF32 (d a b : XReg)
  /-- FSGNX_F64 (R65): FP64 a with sign(a) XOR sign(b). -/
  | fsgnxF64 (d a b : XReg)
  /-- FSGNX_F32 (R65): FP32 a with sign(a) XOR sign(b). -/
  | fsgnxF32 (d a b : XReg)
  /-- FCVT_F32_F64 (R69): Converts FP64 to FP32. -/
  | fcvtF32F64 (rms : Rms) (d a : XReg)
  /-- FCVT_F64_F32 (R69): Converts FP32 to FP64 exactly. -/
  | fcvtF64F32 (rms : Rms) (d a : XReg)
  /-- FCVT_F64_I64 (R69): Converts signed integer to FP64. -/
  | fcvtF64I64 (rms : Rms) (d a : XReg)
  /-- FCVT_F64_N64 (R69): Converts natural integer to FP64. -/
  | fcvtF64N64 (rms : Rms) (d a : XReg)
  /-- FCVT_F32_I64 (R69): Converts signed integer to FP32. -/
  | fcvtF32I64 (rms : Rms) (d a : XReg)
  /-- FCVT_F32_N64 (R69): Converts natural integer to FP32. -/
  | fcvtF32N64 (rms : Rms) (d a : XReg)
  /-- FCVT_I64_F64 (R69): Converts FP64 to signed integer with saturation. -/
  | fcvtI64F64 (rms : Rms) (d a : XReg)
  /-- FCVT_N64_F64 (R69): Converts FP64 to natural integer with saturation. -/
  | fcvtN64F64 (rms : Rms) (d a : XReg)
  /-- FCVT_I64_F32 (R69): Converts FP32 to signed integer with saturation. -/
  | fcvtI64F32 (rms : Rms) (d a : XReg)
  /-- FCVT_N64_F32 (R69): Converts FP32 to natural integer with saturation. -/
  | fcvtN64F32 (rms : Rms) (d a : XReg)
  /-- LD_I8 (R71): Loads a sign-extended byte. -/
  | ldI8 (d a : XReg) (off : Imm19)
  /-- LD_I8_LONG (R71): L-form sign-extended byte load. -/
  | ldI8Long (d a : XReg) (off : Imm32)
  /-- LD_N8 (R71): Loads a zero-extended byte. -/
  | ldN8 (d a : XReg) (off : Imm19)
  /-- LD_N8_LONG (R71): L-form zero-extended byte load. -/
  | ldN8Long (d a : XReg) (off : Imm32)
  /-- LD_I16 (R71): Loads a sign-extended halfword. -/
  | ldI16 (d a : XReg) (off : Imm19)
  /-- LD_I16_LONG (R71): L-form sign-extended halfword load. -/
  | ldI16Long (d a : XReg) (off : Imm32)
  /-- LD_N16 (R71): Loads a zero-extended halfword. -/
  | ldN16 (d a : XReg) (off : Imm19)
  /-- LD_N16_LONG (R71): L-form zero-extended halfword load. -/
  | ldN16Long (d a : XReg) (off : Imm32)
  /-- LD_I32 (R71): Loads a sign-extended word. -/
  | ldI32 (d a : XReg) (off : Imm19)
  /-- LD_I32_LONG (R71): L-form sign-extended word load. -/
  | ldI32Long (d a : XReg) (off : Imm32)
  /-- LD_N32 (R71): Loads a zero-extended word. -/
  | ldN32 (d a : XReg) (off : Imm19)
  /-- LD_N32_LONG (R71): L-form zero-extended word load. -/
  | ldN32Long (d a : XReg) (off : Imm32)
  /-- LD_I64 (R71): Loads 8 bytes. -/
  | ldI64 (d a : XReg) (off : Imm19)
  /-- LD_I64_LONG (R71): L-form 8-byte load. -/
  | ldI64Long (d a : XReg) (off : Imm32)
  /-- ST_8 (R71): Stores xD[7:0]. -/
  | st8 (d a : XReg) (off : Imm19)
  /-- ST_8_LONG (R71): L-form byte store. -/
  | st8Long (d a : XReg) (off : Imm32)
  /-- ST_16 (R71): Stores xD[15:0]. -/
  | st16 (d a : XReg) (off : Imm19)
  /-- ST_16_LONG (R71): L-form halfword store. -/
  | st16Long (d a : XReg) (off : Imm32)
  /-- ST_32 (R71): Stores xD[31:0]. -/
  | st32 (d a : XReg) (off : Imm19)
  /-- ST_32_LONG (R71): L-form word store. -/
  | st32Long (d a : XReg) (off : Imm32)
  /-- ST_64 (R71): Stores all 8 bytes of xD. -/
  | st64 (d a : XReg) (off : Imm19)
  /-- ST_64_LONG (R71): L-form 8-byte store. -/
  | st64Long (d a : XReg) (off : Imm32)
  /-- LD_ACQ (R76): 8-byte acquire load at a scope; invalidates the data L1 and holds later S accesses. -/
  | ldAcq (sc : Scope) (d a : XReg) (off : Imm19)
  /-- LD_ACQ_N32 (R76): 4-byte zero-extended acquire load at a scope. -/
  | ldAcqN32 (sc : Scope) (d a : XReg) (off : Imm19)
  /-- ST_REL (R76): 8-byte release store after earlier S stores are acknowledged. -/
  | stRel (sc : Scope) (d a : XReg) (off : Imm19)
  /-- ST_REL_32 (R76): 4-byte release store of xD[31:0]. -/
  | stRel32 (sc : Scope) (d a : XReg) (off : Imm19)
  /-- AMO_SWAP (R77): Atomic swap at the line's home, returning the old value. -/
  | amoSwap (w32 : Bool) (d a b : XReg) (off : Imm19)
  /-- AMO_ADD (R77): Atomic wrapping add. -/
  | amoAdd (w32 : Bool) (d a b : XReg) (off : Imm19)
  /-- AMO_AND (R77): Atomic AND. -/
  | amoAnd (w32 : Bool) (d a b : XReg) (off : Imm19)
  /-- AMO_OR (R77): Atomic OR. -/
  | amoOr (w32 : Bool) (d a b : XReg) (off : Imm19)
  /-- AMO_XOR (R77): Atomic XOR. -/
  | amoXor (w32 : Bool) (d a b : XReg) (off : Imm19)
  /-- AMO_MIN_I (R77): Atomic signed minimum. -/
  | amoMinI (w32 : Bool) (d a b : XReg) (off : Imm19)
  /-- AMO_MAX_I (R77): Atomic signed maximum. -/
  | amoMaxI (w32 : Bool) (d a b : XReg) (off : Imm19)
  /-- AMO_MIN_N (R77): Atomic natural minimum. -/
  | amoMinN (w32 : Bool) (d a b : XReg) (off : Imm19)
  /-- AMO_MAX_N (R77): Atomic natural maximum. -/
  | amoMaxN (w32 : Bool) (d a b : XReg) (off : Imm19)
  /-- CAS_64 (R78): 64-bit compare-and-swap returning the old value. -/
  | cas64 (d a b c : XReg) (off : Imm19)
  /-- CAS_32 (R78): 32-bit compare-and-swap returning the sign-extended old value. -/
  | cas32 (d a b c : XReg) (off : Imm19)
  /-- PREFD (R80): Hint: requests a data line into the data L1; never traps. -/
  | prefd (a : XReg) (off : Imm19)
  /-- PREFI (R80): Hint: requests an instruction line into the instruction cache; never traps. -/
  | prefi (a : XReg) (off : Imm19)
  /-- BEQ (R81): Branches if xA = xB. -/
  | beq (a b : XReg) (disp : Imm19)
  /-- BNE (R81): Branches if xA differs from xB. -/
  | bne (a b : XReg) (disp : Imm19)
  /-- BLT_I64 (R81): Branches if xA < xB signed. -/
  | bltI64 (a b : XReg) (disp : Imm19)
  /-- BGE_I64 (R81): Branches if xA >= xB signed. -/
  | bgeI64 (a b : XReg) (disp : Imm19)
  /-- BLT_N64 (R81): Branches if xA < xB natural. -/
  | bltN64 (a b : XReg) (disp : Imm19)
  /-- BGE_N64 (R81): Branches if xA >= xB natural. -/
  | bgeN64 (a b : XReg) (disp : Imm19)
  /-- JAL (R82): Jumps PC-relative with a 19-bit word displacement, linking PC + 8. -/
  | jal (d : XReg) (disp : Imm19)
  /-- JAL_LONG (R82): L-form jump with a 32-bit word displacement. -/
  | jalLong (d : XReg) (disp : Imm32)
  /-- JALR (R82): Jumps to xA plus offset, linking PC + 8. -/
  | jalr (d a : XReg) (off : Imm19)
  /-- SETTYPE_IMM (R85): Sets VTYPE from an immediate request, or VILL if unsupported; clears VL and VSTART. -/
  | settypeImm (d : XReg) (req : BitVec 7)
  /-- SETTYPE_REG (R85): Sets VTYPE from a register request. -/
  | settypeReg (d a : XReg)
  /-- SETVL_REG (R86): Grants VL from a register request, grant and lane budget. -/
  | setvlReg (d a : XReg)
  /-- SETVL_IMM (R86): Grants VL from an immediate request. -/
  | setvlImm (d : XReg) (req : Imm19)
  /-- SETVL_STREAM (R87): Grants VL clamped by the elements remaining in a stream, waiting if not yet known. -/
  | setvlStream (d a : XReg) (n : BitVec 2)
  /-- SETSHAPE_REG (R88): Sets SHAPE rows and columns from registers under the row budget. -/
  | setshapeReg (d a b : XReg)
  /-- SETSHAPE_IMM (R88): Sets SHAPE rows and columns from immediates. -/
  | setshapeImm (d : XReg) (rows cols : BitVec 6)
  /-- CSRR (R89): Reads a CSR into xD. -/
  | csrr (d : XReg) (csr : BitVec 12)
  /-- CSRW (R89): Writes xA to a CSR; the write for CSRs without behaviour of their own. -/
  | csrw (csr : BitVec 12) (a : XReg)
  /-- CSRRW (R89): Swaps a CSR with xA. -/
  | csrrw (d : XReg) (csr : BitVec 12) (a : XReg)
  /-- CSRS (R89): Sets CSR bits from xA, returning the old value. -/
  | csrs (d : XReg) (csr : BitVec 12) (a : XReg)
  /-- CSRC (R89): Clears CSR bits from xA, returning the old value. -/
  | csrc (d : XReg) (csr : BitVec 12) (a : XReg)
  /-- DRAIN (R92): Holds later issue until the named queues cmd, val, st are empty. -/
  | drain (q : BitVec 3)
  /-- TRAP (R102): Raises the software trap with its immediate in DETAIL. -/
  | trap (imm : BitVec 12)
  /-- ERET (R103): Returns from a trap, restoring privilege and replaying a held window. -/
  | eret
  /-- VSAVE (R106): Writes the vector context image with the window and empties the window. -/
  | vsave (d a : XReg)
  /-- VREST (R108): Checks and restores a context image, placing its window. -/
  | vrest (a : XReg)
  /-- LAUNCH (R289): Reads a launch block, checks it and creates its threads and crew. -/
  | launch (d a : XReg) (off : Imm19)
  /-- JOIN (R284): Makes the thread a member of a crew. -/
  | join (d a : XReg)
  /-- LEAVE (R284): Ends the thread's crew membership. -/
  | leave (d : XReg)
  /-- YIELD (R286): Parks the thread if an eligible thread of equal or higher priority is queued. -/
  | yield
  /-- YIELD_PARK (R286): Supervisor park of the thread unconditionally. -/
  | yieldPark
  /-- EXIT (R287): Discards a held window, drains queues, closes streams and channels and retires the thread. -/
  | exit (a : XReg)
  /-- HPRIO (R288): Hint: requests a priority level for later placements. -/
  | hprio (lvl : BitVec 3)
  /-- HAFN (R288): Hint: requests placement on a given core. -/
  | hafn (a : XReg)
  /-- LEND (R293): Ends a live launch, retiring its threads. -/
  | lend (d a : XReg)
  /-- BYINIT (R297): Initialises a buoy with EXPECT and CREW. -/
  | byinit (d a b : XReg) (off : Imm19)
  /-- BYARRIVE (R298): Fences, then counts n arrivals at a buoy and may complete a phase. -/
  | byarrive (d a : XReg) (n : BitVec 8)
  /-- BYWAIT (R299): Waits until a buoy's phase differs or a bound expires, then fences. -/
  | bywait (d a b c : XReg) (off : Imm19)
  /-- FENCE (R257): Waits for predecessor-path accesses at a scope and applies successor effects. -/
  | fence (sc : Scope) (uo : Bool) (pred succ : BitVec 7)
  /-- FENCE_PD (R393): Pod-scope fence that sweeps the thread's remote writes and returns a status. -/
  | fencePd (uo : Bool) (d : XReg) (pred succ : BitVec 7)
  /-- WAITADDR (R269): Waits until an 8-byte word differs from xB or the bound expires. -/
  | waitaddr (d a b c : XReg) (off : Imm19)
  /-- WAITADDR_32 (R269): Waits until a 4-byte word differs from xB[31:0] or the bound expires. -/
  | waitaddr32 (d a b c : XReg) (off : Imm19)
  /-- CEWAIT (R270): Waits until a copy with the given identifier is no longer queued or running. -/
  | cewait (d a c : XReg)
  /-- LNEMPTY (R267): Sets a run of scratchpad lines empty. -/
  | lnempty (a b : XReg) (off : Imm19)
  /-- WELT (R277): Reads a Welt block, checks it and queues it. -/
  | welt (d a : XReg) (off : Imm19)
  /-- BCNOPEN (R387): Opens a beacon channel to a package. -/
  | bcnopen (d a : XReg)
  /-- BEACON (R388): Waits for earlier writes to leave, then sends a counted flag. -/
  | beacon (d a b : XReg) (n : BitVec 4) (off : BitVec 15)
  /-- BCNCLOSE (R392): Waits, sends a close carrying SENT and frees the channel. -/
  | bcnclose (d : XReg) (n : BitVec 4)
  /-- CBKLD (R192): Reads 64 bytes and loads the K4 codebook as a rendezvous. -/
  | cbkld (a : XReg) (off : Imm19)
  /-- VADD_FP (R174): Vector floating add. -/
  | vaddFp (ty : Ty) (m : Mask) (rms : Rms) (d a : VReg) (b : VSrc)
  /-- VSUB_FP (R174): Vector floating subtract. -/
  | vsubFp (ty : Ty) (m : Mask) (rms : Rms) (d a : VReg) (b : VSrc)
  /-- VMUL_FP (R174): Vector floating multiply. -/
  | vmulFp (ty : Ty) (m : Mask) (rms : Rms) (d a : VReg) (b : VSrc)
  /-- VDIV (R174): Vector floating divide. -/
  | vdiv (ty : Ty) (m : Mask) (rms : Rms) (d a : VReg) (b : VSrc)
  /-- VSQRT (R174): Vector floating square root. -/
  | vsqrt (ty : Ty) (m : Mask) (rms : Rms) (d a : VReg)
  /-- VFMA (R174): Vector fused multiply-add into vD. -/
  | vfma (ty : Ty) (m : Mask) (rms : Rms) (d a : VReg) (b : VSrc)
  /-- VFNMA (R174): Vector d minus a times b, rounded once. -/
  | vfnma (ty : Ty) (m : Mask) (rms : Rms) (d a : VReg) (b : VSrc)
  /-- VMIN_FP (R175): Vector floating minimumNumber. -/
  | vminFp (ty : Ty) (m : Mask) (rms : Rms) (d a : VReg) (b : VSrc)
  /-- VMAX_FP (R175): Vector floating maximumNumber. -/
  | vmaxFp (ty : Ty) (m : Mask) (rms : Rms) (d a : VReg) (b : VSrc)
  /-- VCMP_FP (R175): Vector floating compare into a mask. -/
  | vcmpFp (pr : Pred) (ty : Ty) (m : Mask) (d : KReg) (a : VReg) (b : VSrc)
  /-- VSGN (R176): Vector sign injection from b. -/
  | vsgn (ty : Ty) (m : Mask) (d a : VReg) (b : VSrc)
  /-- VSGNN (R176): Vector negated sign injection from b. -/
  | vsgnn (ty : Ty) (m : Mask) (d a : VReg) (b : VSrc)
  /-- VSGNX (R176): Vector XOR sign injection. -/
  | vsgnx (ty : Ty) (m : Mask) (d a : VReg) (b : VSrc)
  /-- VSCL (R187): Scales elements by their block's E8 scale. -/
  | vscl (inv : Bool) (ty : Ty) (m : Mask) (d a : VReg) (b : EReg)
  /-- VADD_INT (R177): Vector integer wrapping add. -/
  | vaddInt (ty : Ty) (m : Mask) (d a : VReg) (b : VSrc)
  /-- VSUB_INT (R177): Vector integer wrapping subtract. -/
  | vsubInt (ty : Ty) (m : Mask) (d a : VReg) (b : VSrc)
  /-- VADD_SAT (R177): Vector saturating add. -/
  | vaddSat (ty : Ty) (m : Mask) (d a : VReg) (b : VSrc)
  /-- VSUB_SAT (R177): Vector saturating subtract. -/
  | vsubSat (ty : Ty) (m : Mask) (d a : VReg) (b : VSrc)
  /-- VMUL_INT (R177): Vector integer low product. -/
  | vmulInt (ty : Ty) (m : Mask) (d a : VReg) (b : VSrc)
  /-- VMULH (R177): Vector integer high product. -/
  | vmulh (ty : Ty) (m : Mask) (d a : VReg) (b : VSrc)
  /-- VMADD (R177): Vector integer multiply-add. -/
  | vmadd (ty : Ty) (m : Mask) (d a : VReg) (b : VSrc)
  /-- VMIN_INT (R177): Vector integer minimum. -/
  | vminInt (ty : Ty) (m : Mask) (d a : VReg) (b : VSrc)
  /-- VMAX_INT (R177): Vector integer maximum. -/
  | vmaxInt (ty : Ty) (m : Mask) (d a : VReg) (b : VSrc)
  /-- VCMP_INT (R177): Vector integer compare into a mask. -/
  | vcmpInt (pr : Pred) (ty : Ty) (m : Mask) (d : KReg) (a : VReg) (b : VSrc)
  /-- VSLL (R177): Vector shift left. -/
  | vsll (ty : Ty) (m : Mask) (d a : VReg) (b : VSrc)
  /-- VSRL (R177): Vector logical shift right. -/
  | vsrl (ty : Ty) (m : Mask) (d a : VReg) (b : VSrc)
  /-- VSRA (R177): Vector arithmetic shift right. -/
  | vsra (ty : Ty) (m : Mask) (d a : VReg) (b : VSrc)
  /-- VID (R190): Writes each element's index. -/
  | vid (ty : Ty) (m : Mask) (d : VReg)
  /-- VAND (R178): Untyped vector AND. -/
  | vand (m : Mask) (d a : VReg) (b : VSrc)
  /-- VOR (R178): Untyped vector OR. -/
  | vor (m : Mask) (d a : VReg) (b : VSrc)
  /-- VXOR (R178): Untyped vector XOR. -/
  | vxor (m : Mask) (d a : VReg) (b : VSrc)
  /-- VMV (R178): Copies vA with its tag. -/
  | vmv (m : Mask) (d a : VReg)
  /-- KAND (R181): Mask AND. -/
  | kand (d a b : KReg)
  /-- KOR (R181): Mask OR. -/
  | kor (d a b : KReg)
  /-- KXOR (R181): Mask XOR. -/
  | kxor (d a b : KReg)
  /-- KANDN (R181): Mask AND NOT. -/
  | kandn (d a b : KReg)
  /-- KNOT (R181): Mask NOT. -/
  | knot (d a : KReg)
  /-- KSET (R181): Sets mask bits to 1. -/
  | kset (d : KReg)
  /-- VBCAST (R179): Broadcasts xA bits into every active element. -/
  | vbcast (ty : Ty) (m : Mask) (d : VReg) (a : XReg)
  /-- VMVX (R180): Returns one vector element to xD through val. -/
  | vmvx (ty : Ty) (d : XReg) (a : VReg) (b : XReg)
  /-- VCVT (R183): Converts elements between formats with parts for width changes. -/
  | vcvt (m : Mask) (rms : Rms) (part : BitVec 4) (dst src : Ty) (d a : VReg)
  /-- VSEGMAX (R185): Writes one E8 block exponent per 32 elements. -/
  | vsegmax (ty : Ty) (k : KReg) (d : EReg) (a : VReg)
  /-- VSALSEL (R188): Selects salient elements per group into a mask. -/
  | vsalsel (pat : SalPat) (ty : Ty) (m : Mask) (d : KReg) (a b : VReg)
  /-- VRNG_N32 (R189): Writes counter-based random numbers. -/
  | vrngN32 (m : Mask) (d : VReg) (a b : XReg)
  /-- VLD (R198): Unit-stride vector load. -/
  | vld (ty : Ty) (m : Mask) (d : VReg) (a : XReg) (off : Imm19)
  /-- VST (R198): Unit-stride vector store held until release. -/
  | vst (ty : Ty) (k : KReg) (fl : Bool) (d : VReg) (a : XReg) (off : Imm19)
  /-- VLDS (R196): Strided vector load. -/
  | vlds (ty : Ty) (m : Mask) (d : VReg) (a b : XReg) (off : Imm19)
  /-- VSTS (R196): Strided vector store. -/
  | vsts (ty : Ty) (k : KReg) (fl : Bool) (d : VReg) (a b : XReg) (off : Imm19)
  /-- VLDX (R196): Indexed vector load within scratchpad and lane-slice windows. -/
  | vldx (ty : Ty) (m : Mask) (d : VReg) (a : XReg) (b : VReg) (sh : BitVec 4) (off : BitVec 15)
  /-- VSTX (R196): Indexed vector store within scratchpad and lane-slice windows. -/
  | vstx (ty : Ty) (k : KReg) (fl : Bool) (d : VReg) (a : XReg) (b : VReg) (sh : BitVec 4) (off : BitVec 15)
  /-- VGATH (R324): Gathers rows through the Awl. -/
  | vgath (ty : Ty) (m : Mask) (d : VReg) (a : XReg) (b : VReg) (sh : BitVec 5) (re : BitVec 12)
  /-- VSCAT (R325): Scatters rows through the Awl. -/
  | vscat (ty : Ty) (k : KReg) (d : VReg) (a : XReg) (b : VReg) (sh : BitVec 5) (re : BitVec 12)
  /-- VSCADD (R326): Scatter-adds elements indivisibly at their homes. -/
  | vscadd (ty : Ty) (k : KReg) (d : VReg) (a : XReg) (b : VReg) (sh : BitVec 5) (re : BitVec 12)
  /-- SOPEN (R205): Reads a stream descriptor and opens a stream port. -/
  | sopen (n : BitVec 2) (a : XReg) (off : Imm19)
  /-- SADV (R204): Advances a stream position. -/
  | sadv (n : BitVec 2) (a : XReg)
  /-- STEND (R204): Returns whether a stream is at its end. -/
  | stend (d : XReg) (n : BitVec 2)
  /-- SCLOSE (R204): Closes a stream. -/
  | sclose (n : BitVec 2)
  /-- FOPEN (R214): Reads a fibre descriptor and opens a stream pair on its first row. -/
  | fopen (n : BitVec 2) (a : XReg) (off : Imm19)
  /-- FADV (R214): Makes the next fibre row current. -/
  | fadv (n : BitVec 2)
  /-- FTEND (R214): Returns fibre row-end and end flags. -/
  | ftend (d : XReg) (n : BitVec 2)
  /-- FCLOSE (R214): Closes a fibre pair. -/
  | fclose (n : BitVec 2)
  /-- VGAM_RD (R223): Returns a register's group arrival map. -/
  | vgamRd (d : XReg) (a : VReg)
  /-- VGAM_WR (R224): Arms register groups for gang delivery. -/
  | vgamWr (d : VReg) (a : XReg)
  /-- VRED (R217): Reduces a vector to a scalar in fixed order. -/
  | vred (op : ROp) (ty : Ty) (k : KReg) (d : XReg) (a : VReg) (b : XReg)
  /-- VSCAN (R218): Inclusive or exclusive scan of a vector. -/
  | vscan (op : ROp) (ex : Bool) (ty : Ty) (m : Mask) (d a : VReg) (b : XReg)
  /-- VPERM (R219): Permutes elements by an index vector. -/
  | vperm (m : Mask) (d a b : VReg)
  /-- VSLIDE_UP (R220): Slides elements up by a scalar amount. -/
  | vslideUp (m : Mask) (d a : VReg) (b : XReg)
  /-- VSLIDE_DN (R220): Slides elements down by a scalar amount. -/
  | vslideDn (m : Mask) (d a : VReg) (b : XReg)
  /-- VCOMPRESS (R221): Packs selected elements to the front or into a write port. -/
  | vcompress (k : KReg) (d a : VReg)
  /-- KPOPC (R222): Counts set mask bits below VL. -/
  | kpopc (d : XReg) (a : KReg)
  /-- KFIRST (R222): Finds the lowest set mask bit below VL. -/
  | kfirst (d : XReg) (a : KReg)
  /-- PLPACK (R233): Quantises a vector into plane-slab rows. -/
  | plpack (ty : Ty) (k : KReg) (fl : Bool) (p : BitVec 4) (d : VReg) (a : XReg) (b : EReg) (c : XReg)
  /-- PLUNPK (R234): Reads slab rows back as FP32. -/
  | plunpk (m : Mask) (p : BitVec 4) (d : VReg) (a c : XReg)
  /-- MMA (R236): Bit-plane multiply-accumulate into a tile. -/
  | mma (pa pb : BitVec 4) (ser : Bool) (d : MReg) (a b c : XReg)
  /-- MZERO (R239): Zeroes a whole tile and sets its tag. -/
  | mzero (d : MReg)
  /-- MLD (R239): Loads tile rows from memory. -/
  | mld (d : MReg) (a b : XReg) (off : Imm19)
  /-- MST (R239): Stores tile rows to memory. -/
  | mst (d : MReg) (a b : XReg) (off : Imm19)
  /-- RRED (R395): Sends one fire-and-forget reduction to an address. -/
  | rred (op : ROp) (ty : RTy) (a b : XReg) (off : Imm19)
  /-- RWSET (R394): Defines or disables a reduction window. -/
  | rwset (d : XReg) (n : BitVec 4) (a b : XReg)
  /-- FMAP (R397): Writes a route-map entry. -/
  | fmap (a b : XReg)
  /-- PAIR_WORD (R41): Issues a P-form word whose two slots act as their S-form counterparts. -/
  | pairWord (s0 s1 : Slot)
  /-- ILLEGAL_WORD (R38): A fetched word that is not an instruction raises its decode trap. -/
  | illegalWord (w : Word)
  /-- INSTRUCTION_FETCH_FILL (R113): An instruction line fill completes for issue or prefetch. -/
  | instructionFetchFill (tid : Nat) (va : Word)
  /-- DATA_L1_FILL (R140): A data L1 line miss is filled. -/
  | dataL1Fill (tid : Nat) (va : Word)
  /-- PAGE_WALK (R318): A walker completes a page-table walk for a miss. -/
  | pageWalk (walker : Walker) (va : Word)
  /-- BROADCAST (R126): An E-class word leaves cmd for every granted lane queue once room exists. -/
  | broadcast (tid : Nat)
  /-- LANE_GROUP_EXECUTE (R132): A lane performs one element group once its sources have arrived. -/
  | laneGroupExecute (tid lane : Nat)
  /-- LOAD_GROUP_LAND (R198): Data of a load, pop or gather group land and set the GAM bit. -/
  | loadGroupLand (tid entry group : Nat)
  /-- EMPTY_LINE_FILLED_WAKE (R266): A read waiting on an empty scratchpad line proceeds when it becomes full. -/
  | emptyLineFilledWake (tid : Nat)
  /-- STORE_RELEASE (R134): A store is released into st once every granted commit pointer has passed it. -/
  | storeRelease (tid : Nat)
  /-- STORE_PERFORM (R134): A released store group is performed in memory and leaves st. -/
  | storePerform (tid idx : Nat)
  /-- VALUE_ARRIVE (R21): A value from the execute side arrives and clears its pending register. -/
  | valueArrive (tid : Nat)
  /-- LANE_DELIVER (R129): A lane delivers its part of a rendezvous instruction. -/
  | laneDeliver (tid lane : Nat)
  /-- RENDEZVOUS_DONE (R129): A combining rendezvous reaches DONE and writes or returns its result. -/
  | rendezvousDone (tid : Nat)
  /-- MATRIX_ENGINE_START (R230): The engine starts the next queued matrix instruction. -/
  | matrixEngineStart (core : Nat)
  /-- MMA_ROW (R236): The engine completes one output row of an mma. -/
  | mmaRow (core : Nat)
  /-- MATRIX_COMPLETE (R231): The engine completes a matrix instruction and frees its lane entries. -/
  | matrixComplete (core : Nat)
  /-- STREAM_PREFETCH (R209): A read stream reads a position ahead of the pop. -/
  | streamPrefetch (tid stream pos : Nat)
  /-- TRAP_ENTRY (R101): A detected fault forms the window, writes trap registers and enters the handler. -/
  | trapEntry (tid : Nat)
  /-- ADMIT (R24): The keeper admits a created thread to a ready queue. -/
  | admitThread (tid : Nat)
  /-- PLACE_THREAD (R301): The keeper places the head of the highest level on a free context. -/
  | placeThread (cluster : Nat)
  /-- SCRATCHPAD_CARRY (R262): After the thread's copies finish, its scratchpad lines are copied to the new core. -/
  | scratchpadCarry (tid : Nat)
  /-- SLICE_END (R302): A holder's time slice expires with an equal or higher thread queued. -/
  | sliceEnd (tid : Nat)
  /-- GANG_WAIT_SLICE_EXPIRY (R303): A gang that has not fit for one slice parks lower holders on its core set. -/
  | gangWaitSliceExpiry (cluster : Nat)
  /-- AGING_INTERVAL (R28): An unplaced thread rises one level per aging interval. -/
  | agingInterval (tid : Nat)
  /-- WAIT_EVENT (R269): A write makes a waited word or buoy phase differ and the wait ends or the parked thread becomes eligible. -/
  | waitEvent (tid : Nat)
  /-- WAIT_DEADLINE (R25): A wait's deadline passes and it completes with the timeout status. -/
  | waitDeadline (tid : Nat)
  /-- LAUNCH_COMPLETE (R295): Once all threads retire and engines finish, the completion record is written. -/
  | launchComplete (lid : Nat)
  /-- CEGO_READ (R272): A read of CEGO checks the shadows, empties destination lines and queues a copy. -/
  | cegoRead (d : XReg)
  /-- COPY_START (R273): The copy engine takes a queued copy in start order. -/
  | copyStart (cluster : Nat)
  /-- COPY_LINE_LAND (R273): A copy performs its bytes in a destination line and sets it full. -/
  | copyLineLand (cluster id line : Nat)
  /-- COPY_COMPLETE (R273): A copy writes its completion words after its last byte. -/
  | copyComplete (cluster id : Nat)
  /-- COPY_FAULT (R275): A copy stops at a fault, poisons unfilled lines and writes the fault word. -/
  | copyFault (cluster id : Nat)
  /-- GANG_DELIVERY (R276): Gang data reach a member and fill its armed groups. -/
  | gangDelivery (cluster id tid : Nat)
  /-- WELT_BLOCK_START (R278): The Welt unit starts the next block and reads its headers. -/
  | weltBlockStart (cluster : Nat)
  /-- WELT_MERGE_ROW (R279): Welt merges one CSR row and writes its count. -/
  | weltMergeRow (cluster : Nat)
  /-- WELT_COMPRESS_ROW (R280): Welt compresses one dense row and writes its count. -/
  | weltCompressRow (cluster : Nat)
  /-- WELT_COMPLETE (R281): Welt writes the completion record of a finished block. -/
  | weltComplete (cluster : Nat)
  /-- WELT_FAULT (R281): Welt stops at a fault and writes the fault record. -/
  | weltFault (cluster : Nat)
  /-- AWL_ROW_FETCH (R328): The Awl fetches a distinct row once and replays it to requesters. -/
  | awlRowFetch (layer : Nat) (row : Word)
  /-- G_RELEASE (R327): A scatter or scatter-add is released to the Awl after translation and commit. -/
  | gRelease (tid : Nat)
  /-- SCATTER_ADD_PERFORM (R326): A scatter-add element is performed indivisibly at its home. -/
  | scatterAddPerform (tid : Nat)
  /-- FLASH_FRAME (R331): At a 16-cycle frame boundary the applied flash pattern is formed. -/
  | flashFrame (cluster : Nat)
  /-- FLASHCHR_WRITE (R331): A write of the requested pattern takes effect at the next frame. -/
  | flashchrWrite (v : Word)
  /-- LBUDGET_WRITE (R330): A write of the lane budget is clamped and changes LBEFF. -/
  | lbudgetWrite (v : Word)
  /-- SLACK_WRITE (R342): A slack value is written for the slack governor. -/
  | slackWrite (v : Word)
  /-- FCSR_ACCESS (R90): A read or write of FCSR waits for earlier execute-class instructions to commit. -/
  | fcsrAccess (op : CsrOp) (d a : XReg)
  /-- VSTART_ACCESS (R90): A read or write of VSTART waits for earlier execute-class instructions to commit. -/
  | vstartAccess (op : CsrOp) (d a : XReg)
  /-- SENSOR_SAMPLE (R336): Every 1 us each thermal sensor takes a sample. -/
  | sensorSample (die sensor : Nat) (temp : BitVec 16)
  /-- ENERGY_UPDATE (R338): Every 1 us the energy accumulators are updated. -/
  | energyUpdate (acc delta : Nat)
  /-- POWER_CONTROL (R335): Firmware adjusts LBCAP, FLASHCAP and voltage against PLIM and temperature. -/
  | powerControl (cluster : Nat) (lower : Bool) (lbcap : Nat) (millivolts : BitVec 16)
  /-- THERMAL_EMERGENCY (R335): A sensor at 118 degrees forces minimum caps on its die layer. -/
  | thermalEmergency (layer : Nat)
  /-- SLACK_INTERVAL (R342): At each 2 ms interval the governor updates its count. -/
  | slackInterval
  /-- LANTERN_TRIP (R340): A comparator at 125 degrees removes package power and records the trip. -/
  | lanternTrip (comparators : BitVec 64)
  /-- SCRUB (R345): The scrubber reads a word, corrects or poisons it. -/
  | scrub (word : Nat) (bad : Bool)
  /-- CORRECTED_ERROR (R343): A single-bit error is corrected and counted. -/
  | correctedError (die : Nat)
  /-- UNCORRECTABLE_ERROR (R343): An uncorrectable error poisons, refetches or ends a launch and is logged. -/
  | uncorrectableError (die unit : Nat) (what : BadStore)
  /-- ENERGY_READ_64 (R339): A 64-bit read returns one accumulator sample whole. -/
  | energyRead64 (acc : Nat)
  /-- ENERGY_READ_LOW (R339): A low-half read returns bits [31:0] and latches bits [63:32]. -/
  | energyReadLow (acc : Nat)
  /-- ENERGY_READ_HIGH (R339): A high-half read returns the latch. -/
  | energyReadHigh (acc : Nat)
  /-- ERROR_COUNTER_READ (R343): A read of an error counter returns and clears it. -/
  | errorCounterRead (die ctr : Nat)
  /-- ERRLOG_READ (R343): A read of ERRLOG returns and clears the first error entry. -/
  | errlogRead (die : Nat)
  /-- LANTERN_RECORD_READ (R341): A firmware read of LNTSTAT or LNTFIRST clears both. -/
  | lanternRecordRead (first : Bool)
  /-- PLIM_WRITE (R337): The host writes the package power limit. -/
  | plimWrite (watts : BitVec 32)
  /-- HOST_REGISTER_WRITE (R355): A host write to a BAR0 register with no behaviour of its own. -/
  | hostRegisterWrite (off : Nat) (access : HostAccess)
  /-- DEBUG_HALT (R112): Writing HALT stops issue in all contexts of a core. -/
  | debugHalt (core : Nat) (halt : Bool)
  /-- DEBUG_STEP (R111): Writing STEP issues one word of a context and halts. -/
  | debugStep (core ctx : Nat)
  /-- CEDBG_PAUSE (R112): Writing PAUSE stops the copy engine starting new lines. -/
  | cedbgPause (cluster : Nat) (pause : Bool)
  /-- DBGGO (R371): Writing DBGGO verifies the debug token and unlocks or sounds the foghorn. -/
  | dbggo
  /-- DSTART (R360): Mailbox command launching a block with an address space as a dispatcher. -/
  | dstart
  /-- INVAL (R359): Mailbox command invalidating translations. -/
  | inval
  /-- FWSTAGE (R364): Mailbox command verifying and storing a firmware chunk. -/
  | fwstage
  /-- FWACT (R365): Mailbox command activating staged firmware. -/
  | fwact
  /-- ATTEST (R369): Mailbox command writing a signed attestation report. -/
  | attest
  /-- QUIESCE (R357): Mailbox command parking every thread and waiting for engines to be quiet. -/
  | quiesce
  /-- RESUME (R357): Mailbox command advancing EPOCH and letting keepers place threads. -/
  | resume
  /-- MAILBOX_RESET (R366): Mailbox command causing a warm reset. -/
  | mailboxReset
  /-- UNKNOWN_COMMAND (R357): A mailbox command code not assigned completes with CODE 3. -/
  | unknownCommand (cmd : BitVec 8)
  /-- COLD_RESET (R366): Board power-up or reset line resets the package. -/
  | coldReset
  /-- WARM_RESET (R366): A CXL function-level reset resets the package keeping always-on registers. -/
  | warmReset
  /-- FOGHORN (R372): A security alarm erases the key store, sets FOGSTAT and resets the package. -/
  | foghorn (causes : BitVec 5)
  /-- HOST_MEM_ACCESS (R353): A host CXL.mem read or write is performed at the home slice. -/
  | hostMemAccess (addr : Nat) (data : List Byte) (write : Bool)
  /-- HOST_SNOOP (R354): A host snoop reaches the host-line cache. -/
  | hostSnoop (line : Nat) (data : List Byte)
  /-- FLIT_RECEIVE (R376): A flit arrives on a link and is checked and delivered once. -/
  | flitReceive (link : Nat) (seq : BitVec 16) (good : Bool) (src dst : Nat) (p : Packet)
  /-- NAK_RECEIVE (R376): The sender receives a NAK and replays from its ring. -/
  | nakReceive (link : Nat) (seq : BitVec 16)
  /-- LINK_TRAINED (R377): A link finishes training and comes up. -/
  | linkTrained (link : Nat)
  /-- DATAGRAM_RECEIVE (R380): A scale-out datagram arrives and is checked. -/
  | datagramReceive (port : Nat) (good : Bool) (src : Nat) (p : Packet)
  /-- REMOTE_WRITE_PERFORM (R381): A remote write is performed at the owner's home and counted. -/
  | remoteWritePerform (idx : Nat)
  /-- REMOTE_LOAD_REQUEST (R381): The owner serves a remote load request and replies. -/
  | remoteLoadRequest (idx : Nat)
  /-- REMOTE_LOAD_REPLY (R384): A remote load reply lands at the requester. -/
  | remoteLoadReply (idx : Nat)
  /-- REMOTE_LOAD_TIMEOUT (R384): A remote load without a reply within FTO raises remote peer lost. -/
  | remoteLoadTimeout (tid : Nat)
  /-- BEACON_OPEN_REQUEST (R387): The receiver makes a receiver-table entry for an open request and replies. -/
  | beaconOpenRequest (idx : Nat)
  /-- BEACON_OPEN_REPLY (R387): The open reply completes bcnopen. -/
  | beaconOpenReply (idx : Nat)
  /-- BEACON_OPEN_TIMEOUT (R387): No open reply within FTO refuses the open. -/
  | beaconOpenTimeout (tid : Nat)
  /-- BEACON_FLAG_ARRIVE (R390): A beacon flag arrives and is held or written. -/
  | beaconFlagArrive (idx : Nat)
  /-- BEACON_FLAG_SHORT (R390): BTO passes after a flag arrived and it is written SHORT. -/
  | beaconFlagShort (idx : Nat)
  /-- BEACON_FLAG_REPORT (R388): The sender learns a flag was written and it stops being outstanding. -/
  | beaconFlagReport (idx : Nat)
  /-- FLAG_OUTSTANDING_EXPIRY (R388): A flag stops being outstanding FTO after it was sent. -/
  | flagOutstandingExpiry (chan : Nat)
  /-- BEACON_CLOSE_REQUEST (R392): The receiver frees a channel entry once ARR reaches SENT or BTO passes. -/
  | beaconCloseRequest (idx : Nat)
  /-- BEACON_CLOSE_REPLY (R392): The close reply completes bcnclose. -/
  | beaconCloseReply (idx : Nat)
  /-- BEACON_CLOSE_TIMEOUT (R392): No close reply within FTO completes bcnclose with status 1. -/
  | beaconCloseTimeout (tid : Nat)
  /-- SWEEP_MARKER_ARRIVE (R393): A sweep marker arrives and is echoed once its count is performed. -/
  | sweepMarkerArrive (idx : Nat)
  /-- SWEEP_MARKER_SHORT (R393): BTO passes after a marker arrived and SHORT is echoed. -/
  | sweepMarkerShort (idx : Nat)
  /-- SWEEP_ECHO (R393): A sweep echo reaches the fencing thread. -/
  | sweepEcho (idx : Nat)
  /-- SWEEP_TIMEOUT (R393): No echo within FTO gives fence.pd status peer lost. -/
  | sweepTimeout (tid : Nat)
  /-- REDUCTION_ARRIVE (R396): A reduction is added exactly into its window element or discarded. -/
  | reductionArrive (idx : Nat)
  /-- BEACON_CLOSE_BTO (R392): The thread's BTO passes at the receiver after a close arrived while ARR is still below the close's SENT, so the entry is freed short and the reply is sent. -/
  | beaconCloseBto (idx : Nat)
  /-- LINK_OUT_OF_SERVICE (R377): A scale-up link loses its neighbour, or a scale-out Ethernet port goes down, so LNKSTAT.STATE or XOSTAT.UP falls and routes, detours and port hashing change. -/
  | linkOutOfService (scaleOut : Bool) (n : Nat)
  deriving DecidableEq, Repr

end Sys2Proof
end

