-- ==== Sys2Proof/Decode.lean ====
section
/-!
DEFINITION. Decoding an instruction word (02 R30 to R43 and the encoding tables of the owning chapters), total on every
64-bit word and rejecting by name, and the encoder written from the same tables. A rejected word runs as
`Instr.illegalWord`. H bits are ignored (02 R37, R38 row 8). The privilege check (R38 row 7) is made where an
instruction executes.
-/
namespace Sys2Proof

/-- Why a word is no instruction: the rows of 02 R38. -/
inductive Reject where
  | frameKind | opcode | function | pairOpcode | mustBeZero | pairing
  deriving DecidableEq, Repr

/-- The fields of an S-form word but FK and H (02 R32). -/
structure SFields where
  op : BitVec 8
  fn : BitVec 6
  d : BitVec 5
  a : BitVec 5
  b : BitVec 5
  c : BitVec 5
  k : BitVec 3
  x : BitVec 19
  deriving DecidableEq, Repr

/-- The fields of an L-form word but FK and H (02 R33). -/
structure LFields where
  op : BitVec 8
  fn : BitVec 6
  d : BitVec 5
  a : BitVec 5
  i : BitVec 32
  deriving DecidableEq, Repr

/-- A word read as the frame its FK names (02 R31); a pair holds its two 31-bit slots. -/
inductive Frame where
  | s (f : SFields)
  | l (f : LFields)
  | p (s0 s1 : BitVec 31)
  deriving DecidableEq, Repr

/-- 02 R31. -/
def frameOf (w : Word) : Except Reject Frame :=
  if w.extractLsb' 62 2 = 0 then
    .ok (.s ⟨w.extractLsb' 54 8, w.extractLsb' 48 6, w.extractLsb' 43 5, w.extractLsb' 38 5, w.extractLsb' 33 5,
      w.extractLsb' 28 5, w.extractLsb' 25 3, w.extractLsb' 0 19⟩)
  else if w.extractLsb' 62 2 = 1 then .ok (.p (w.extractLsb' 31 31) (w.extractLsb' 0 31))
  else if w.extractLsb' 62 2 = 2 then
    .ok (.l ⟨w.extractLsb' 54 8, w.extractLsb' 48 6, w.extractLsb' 43 5, w.extractLsb' 38 5, w.extractLsb' 0 32⟩)
  else .error .frameKind

/-- The word of a frame, its H field zero. -/
def Frame.word : Frame → Word
  | .s f => 0#2 ++ f.op ++ f.fn ++ f.d ++ f.a ++ f.b ++ f.c ++ f.k ++ 0#6 ++ f.x
  | .l f => 2#2 ++ f.op ++ f.fn ++ f.d ++ f.a ++ 0#6 ++ f.i
  | .p s0 s1 => 1#2 ++ s0 ++ s1

/-- Accept `i` when the must-be-zero condition of 02 R38 row 5 holds. -/
def mbz {α : Type} (ok : Bool) (i : α) : Except Reject α :=
  if ok then .ok i else .error .mustBeZero

/-- RMS codes (03 R64): 001 to 011 are not assigned. -/
def Rms.ofCode (b : BitVec 3) : Option Rms :=
  match b.toNat with
  | 0 => some .dyn | 4 => some .rne | 5 => some .rtz | 6 => some .rup | 7 => some .rdn | _ => none

def Rms.code : Rms → BitVec 3
  | .dyn => 0 | .rne => 4 | .rtz => 5 | .rup => 6 | .rdn => 7

/-- Scope codes (11 R251). -/
def Scope.ofCode (b : BitVec 3) : Option Scope :=
  match b.toNat with
  | 0 => some .lg | 1 => some .co | 2 => some .dl | 3 => some .ch | 4 => some .rt | 5 => some .pk | 6 => some .pd | _ => none

def Scope.code : Scope → BitVec 3
  | .lg => 0 | .co => 1 | .dl => 2 | .ch => 3 | .rt => 4 | .pk => 5 | .pd => 6

/-- Tag codes (07 R142). -/
def Fmt.ofCode (b : BitVec 4) : Option Fmt :=
  match b.toNat with
  | 1 => some .fp64 | 2 => some .fp32 | 3 => some .fp16 | 4 => some .bf16 | 5 => some .t8 | 6 => some .t6 | 7 => some .f4
  | 8 => some .k4 | 9 => some .int8 | 10 => some .int16 | 11 => some .int32 | 12 => some .int64 | _ => none

def Fmt.code : Fmt → BitVec 4
  | .fp64 => 1 | .fp32 => 2 | .fp16 => 3 | .bf16 => 4 | .t8 => 5 | .t6 => 6 | .f4 => 7
  | .k4 => 8 | .int8 => 9 | .int16 => 10 | .int32 => 11 | .int64 => 12

/-- Element width in bits (07 R142). -/
def Fmt.width : Fmt → Nat
  | .fp64 => 64 | .fp32 => 32 | .fp16 => 16 | .bf16 => 16 | .t8 => 8 | .t6 => 8 | .f4 => 4
  | .k4 => 4 | .int8 => 8 | .int16 => 16 | .int32 => 32 | .int64 => 64

def Fmt.isInt : Fmt → Bool
  | .int8 | .int16 | .int32 | .int64 => true
  | _ => false

/-- FP64, FP32, FP16, BF16: tag codes 1 to 4. -/
def Fmt.isIeee : Fmt → Bool
  | .fp64 | .fp32 | .fp16 | .bf16 => true
  | _ => false

/-- TY of FN[4:0] (08 R168): N = 1 only with an integer tag. -/
def Ty.ofCode (b : BitVec 5) : Option Ty :=
  match Fmt.ofCode (b.extractLsb' 0 4) with
  | none => none
  | some f => if b.getLsbD 4 && !f.isInt then none else some ⟨f, b.getLsbD 4⟩

def Ty.code (t : Ty) : BitVec 5 := BitVec.ofBool t.nat ++ t.fmt.code

def Pred.ofCode (b : BitVec 3) : Option Pred :=
  match b.toNat with
  | 0 => some .eq | 1 => some .ne | 2 => some .lt | 3 => some .le | 4 => some .gt | 5 => some .ge | _ => none

def Pred.code : Pred → BitVec 3
  | .eq => 0 | .ne => 1 | .lt => 2 | .le => 3 | .gt => 4 | .ge => 5

def ROp.ofCode (b : BitVec 3) : Option ROp :=
  match b.toNat with
  | 0 => some .add | 1 => some .min | 2 => some .max | 3 => some .and | 4 => some .or | 5 => some .xor | _ => none

def ROp.code : ROp → BitVec 3
  | .add => 0 | .min => 1 | .max => 2 | .and => 3 | .or => 4 | .xor => 5

def RTy.ofCode (b : BitVec 3) : Option RTy :=
  match b.toNat with
  | 0 => some .i32 | 1 => some .n32 | 2 => some .i64 | 3 => some .n64 | 4 => some .f32 | 5 => some .bf16 | 6 => some .f16
  | _ => none

def RTy.code : RTy → BitVec 3
  | .i32 => 0 | .n32 => 1 | .i64 => 2 | .n64 => 3 | .f32 => 4 | .bf16 => 5 | .f16 => 6

def RTy.isFloat : RTy → Bool
  | .f32 | .bf16 | .f16 => true
  | _ => false

def SalPat.ofCode (b : BitVec 2) : Option SalPat :=
  match b.toNat with
  | 0 => some .n2m4 | 1 => some .n4m8 | 2 => some .n1m4 | _ => none

def SalPat.code : SalPat → BitVec 2
  | .n2m4 => 0 | .n4m8 => 1 | .n1m4 => 2

/-- A zeroing bit set with k0 is rejected (02 R36). -/
def Mask.ok (m : Mask) : Bool := !(m.z && m.k == 0)

/-- The second source of an SB form (08 R169). -/
def VSrc.ofField (sb : Bool) (b : BitVec 5) : VSrc := if sb then .scalar b else .vec b

def VSrc.field : VSrc → BitVec 5
  | .vec r => r
  | .scalar r => r

def VSrc.sb : VSrc → BitVec 1
  | .vec _ => 0
  | .scalar _ => 1

/-- The TY sets of the allocation tables. -/
def Ty.ieee (t : Ty) : Bool := t.fmt.isIeee && !t.nat
def Ty.integer (t : Ty) : Bool := t.fmt.isInt
def Ty.float8 (t : Ty) : Bool := !t.fmt.isInt && !t.nat
def Ty.sal (t : Ty) : Bool := t.float8 && t.fmt != .fp64
def Ty.any (t : Ty) : Bool := t.fmt.isInt || !t.nat
def Ty.byteWide (t : Ty) : Bool := t.any && t.fmt != .f4 && t.fmt != .k4
def Ty.reducible (t : Ty) : Bool := t.integer || t.ieee

/-- Part count of a conversion (08 R183): the larger width over the smaller. -/
def cvtRatio (dst src : Ty) : Nat := max (dst.fmt.width / src.fmt.width) (src.fmt.width / dst.fmt.width)

/-- The words of vcvt that are assigned (08 R182). -/
def cvtOk (part : BitVec 4) (dst src : Ty) : Bool :=
  dst.any && src.any && dst.fmt != .k4 && part.toNat < cvtRatio dst src && !(dst.fmt == src.fmt && dst.nat == src.nat)

/-- OP 0x01 (03 R57). -/
def decodeAluReg (f : SFields) : Except Reject Instr :=
  match f.fn.toNat with
  | 0x00 => mbz (f.c == 0 && f.k == 0 && f.x == 0) (.add f.d f.a f.b)
  | 0x01 => mbz (f.c == 0 && f.k == 0 && f.x == 0) (.sub f.d f.a f.b)
  | 0x02 => mbz (f.c == 0 && f.k == 0 && f.x == 0) (.and f.d f.a f.b)
  | 0x03 => mbz (f.c == 0 && f.k == 0 && f.x == 0) (.or f.d f.a f.b)
  | 0x04 => mbz (f.c == 0 && f.k == 0 && f.x == 0) (.xor f.d f.a f.b)
  | 0x05 => mbz (f.c == 0 && f.k == 0 && f.x == 0) (.andn f.d f.a f.b)
  | 0x06 => mbz (f.c == 0 && f.k == 0 && f.x == 0) (.orn f.d f.a f.b)
  | 0x07 => mbz (f.c == 0 && f.k == 0 && f.x == 0) (.xnor f.d f.a f.b)
  | 0x08 => mbz (f.c == 0 && f.k == 0 && f.x == 0) (.sll f.d f.a f.b)
  | 0x09 => mbz (f.c == 0 && f.k == 0 && f.x == 0) (.srl f.d f.a f.b)
  | 0x0A => mbz (f.c == 0 && f.k == 0 && f.x == 0) (.sra f.d f.a f.b)
  | 0x0B => mbz (f.c == 0 && f.k == 0 && f.x == 0) (.rol f.d f.a f.b)
  | 0x0C => mbz (f.c == 0 && f.k == 0 && f.x == 0) (.ror f.d f.a f.b)
  | 0x0D => mbz (f.c == 0 && f.k == 0 && f.x == 0) (.minI64 f.d f.a f.b)
  | 0x0E => mbz (f.c == 0 && f.k == 0 && f.x == 0) (.maxI64 f.d f.a f.b)
  | 0x0F => mbz (f.c == 0 && f.k == 0 && f.x == 0) (.minN64 f.d f.a f.b)
  | 0x10 => mbz (f.c == 0 && f.k == 0 && f.x == 0) (.maxN64 f.d f.a f.b)
  | 0x11 => mbz (f.c == 0 && f.k == 0 && f.x == 0) (.sltI64 f.d f.a f.b)
  | 0x12 => mbz (f.c == 0 && f.k == 0 && f.x == 0) (.sltN64 f.d f.a f.b)
  | 0x13 => mbz (f.c == 0 && f.k == 0 && f.x == 0) (.seq f.d f.a f.b)
  | 0x14 => mbz (f.c == 0 && f.k == 0 && f.x == 0) (.add32 f.d f.a f.b)
  | 0x15 => mbz (f.c == 0 && f.k == 0 && f.x == 0) (.sub32 f.d f.a f.b)
  | 0x16 => mbz (f.c == 0 && f.k == 0 && f.x == 0) (.sll32 f.d f.a f.b)
  | 0x17 => mbz (f.c == 0 && f.k == 0 && f.x == 0) (.srl32 f.d f.a f.b)
  | 0x18 => mbz (f.c == 0 && f.k == 0 && f.x == 0) (.sra32 f.d f.a f.b)
  | _ => .error .function

/-- OP 0x02 (03 R57, R58). -/
def decodeAluImm (f : SFields) : Except Reject Instr :=
  match f.fn.toNat with
  | 0x00 => mbz (f.b == 0 && f.c == 0 && f.k == 0) (.addImm f.d f.a f.x)
  | 0x02 => mbz (f.b == 0 && f.c == 0 && f.k == 0) (.andImm f.d f.a f.x)
  | 0x03 => mbz (f.b == 0 && f.c == 0 && f.k == 0) (.orImm f.d f.a f.x)
  | 0x04 => mbz (f.b == 0 && f.c == 0 && f.k == 0) (.xorImm f.d f.a f.x)
  | 0x08 => mbz (f.b == 0 && f.c == 0 && f.k == 0 && f.x.extractLsb' 6 13 == 0) (.sllImm f.d f.a (f.x.extractLsb' 0 6))
  | 0x09 => mbz (f.b == 0 && f.c == 0 && f.k == 0 && f.x.extractLsb' 6 13 == 0) (.srlImm f.d f.a (f.x.extractLsb' 0 6))
  | 0x0A => mbz (f.b == 0 && f.c == 0 && f.k == 0 && f.x.extractLsb' 6 13 == 0) (.sraImm f.d f.a (f.x.extractLsb' 0 6))
  | 0x0B => mbz (f.b == 0 && f.c == 0 && f.k == 0 && f.x.extractLsb' 6 13 == 0) (.rolImm f.d f.a (f.x.extractLsb' 0 6))
  | 0x0C => mbz (f.b == 0 && f.c == 0 && f.k == 0 && f.x.extractLsb' 6 13 == 0) (.rorImm f.d f.a (f.x.extractLsb' 0 6))
  | 0x0D => mbz (f.b == 0 && f.c == 0 && f.k == 0) (.minI64Imm f.d f.a f.x)
  | 0x0E => mbz (f.b == 0 && f.c == 0 && f.k == 0) (.maxI64Imm f.d f.a f.x)
  | 0x0F => mbz (f.b == 0 && f.c == 0 && f.k == 0) (.minN64Imm f.d f.a f.x)
  | 0x10 => mbz (f.b == 0 && f.c == 0 && f.k == 0) (.maxN64Imm f.d f.a f.x)
  | 0x11 => mbz (f.b == 0 && f.c == 0 && f.k == 0) (.sltI64Imm f.d f.a f.x)
  | 0x12 => mbz (f.b == 0 && f.c == 0 && f.k == 0) (.sltN64Imm f.d f.a f.x)
  | 0x13 => mbz (f.b == 0 && f.c == 0 && f.k == 0) (.seqImm f.d f.a f.x)
  | 0x14 => mbz (f.b == 0 && f.c == 0 && f.k == 0) (.add32Imm f.d f.a f.x)
  | 0x16 => mbz (f.b == 0 && f.c == 0 && f.k == 0 && f.x.extractLsb' 5 14 == 0) (.sll32Imm f.d f.a (f.x.extractLsb' 0 5))
  | 0x17 => mbz (f.b == 0 && f.c == 0 && f.k == 0 && f.x.extractLsb' 5 14 == 0) (.srl32Imm f.d f.a (f.x.extractLsb' 0 5))
  | 0x18 => mbz (f.b == 0 && f.c == 0 && f.k == 0 && f.x.extractLsb' 5 14 == 0) (.sra32Imm f.d f.a (f.x.extractLsb' 0 5))
  | _ => .error .function

/-- OP 0x03 (03 R60). -/
def decodeMulDiv (f : SFields) : Except Reject Instr :=
  match f.fn.toNat with
  | 0x00 => mbz (f.c == 0 && f.k == 0 && f.x == 0) (.mul f.d f.a f.b)
  | 0x01 => mbz (f.c == 0 && f.k == 0 && f.x == 0) (.mulhI64 f.d f.a f.b)
  | 0x02 => mbz (f.c == 0 && f.k == 0 && f.x == 0) (.mulhN64 f.d f.a f.b)
  | 0x03 => mbz (f.c == 0 && f.k == 0 && f.x == 0) (.mul32 f.d f.a f.b)
  | 0x04 => mbz (f.c == 0 && f.k == 0 && f.x == 0) (.divI64 f.d f.a f.b)
  | 0x05 => mbz (f.c == 0 && f.k == 0 && f.x == 0) (.divN64 f.d f.a f.b)
  | 0x06 => mbz (f.c == 0 && f.k == 0 && f.x == 0) (.remI64 f.d f.a f.b)
  | 0x07 => mbz (f.c == 0 && f.k == 0 && f.x == 0) (.remN64 f.d f.a f.b)
  | _ => .error .function

/-- OP 0x04 (03 R61). -/
def decodeUnary (f : SFields) : Except Reject Instr :=
  match f.fn.toNat with
  | 0x00 => mbz (f.b == 0 && f.c == 0 && f.k == 0 && f.x == 0) (.clz f.d f.a)
  | 0x01 => mbz (f.b == 0 && f.c == 0 && f.k == 0 && f.x == 0) (.ctz f.d f.a)
  | 0x02 => mbz (f.b == 0 && f.c == 0 && f.k == 0 && f.x == 0) (.popc f.d f.a)
  | 0x03 => mbz (f.b == 0 && f.c == 0 && f.k == 0 && f.x == 0) (.rev8 f.d f.a)
  | 0x04 => mbz (f.b == 0 && f.c == 0 && f.k == 0 && f.x == 0) (.brev f.d f.a)
  | 0x05 => mbz (f.b == 0 && f.c == 0 && f.k == 0 && f.x == 0) (.sext8 f.d f.a)
  | 0x06 => mbz (f.b == 0 && f.c == 0 && f.k == 0 && f.x == 0) (.sext16 f.d f.a)
  | 0x07 => mbz (f.b == 0 && f.c == 0 && f.k == 0 && f.x == 0) (.sext32 f.d f.a)
  | 0x08 => mbz (f.b == 0 && f.c == 0 && f.k == 0 && f.x == 0) (.zext8 f.d f.a)
  | 0x09 => mbz (f.b == 0 && f.c == 0 && f.k == 0 && f.x == 0) (.zext16 f.d f.a)
  | 0x0A => mbz (f.b == 0 && f.c == 0 && f.k == 0 && f.x == 0) (.zext32 f.d f.a)
  | _ => .error .function

/-- OP 0x05 (03 R62). -/
def decodeThree (f : SFields) : Except Reject Instr :=
  match f.fn.toNat with
  | 0x00 => mbz (f.k == 0 && f.x == 0) (.sel f.d f.a f.b f.c)
  | 0x01 => mbz (f.k == 0 && f.x == 0) (.madd f.d f.a f.b f.c)
  | _ => .error .function

/-- OP 0x06, S-form (03 R63). -/
def decodeConst (f : SFields) : Except Reject Instr :=
  match f.fn.toNat with
  | 0x00 => mbz (f.a == 0 && f.b == 0 && f.c == 0 && f.k == 0) (.li f.d f.x)
  | 0x02 => mbz (f.a == 0 && f.b == 0 && f.c == 0 && f.k == 0) (.lpc f.d f.x)
  | _ => .error .function

/-- Read RMS from X[2:0] with X[18:3] zero (03 R64) and build the instruction. -/
def withRms (f : SFields) (ok : Bool) (g : Rms → Instr) : Except Reject Instr :=
  match Rms.ofCode (f.x.extractLsb' 0 3) with
  | none => .error .mustBeZero
  | some r => mbz (ok && f.k == 0 && f.x.extractLsb' 3 16 == 0) (g r)

/-- OP 0x30 (03 R64, R65). -/
def decodeF64 (f : SFields) : Except Reject Instr :=
  match f.fn.toNat with
  | 0x00 => withRms f (f.c == 0) (fun r => .faddF64 r f.d f.a f.b)
  | 0x01 => withRms f (f.c == 0) (fun r => .fsubF64 r f.d f.a f.b)
  | 0x02 => withRms f (f.c == 0) (fun r => .fmulF64 r f.d f.a f.b)
  | 0x03 => withRms f (f.c == 0) (fun r => .fdivF64 r f.d f.a f.b)
  | 0x04 => withRms f (f.b == 0 && f.c == 0) (fun r => .fsqrtF64 r f.d f.a)
  | 0x05 => withRms f true (fun r => .fmaF64 r f.d f.a f.b f.c)
  | 0x06 => mbz (f.c == 0 && f.k == 0 && f.x == 0) (.fminF64 f.d f.a f.b)
  | 0x07 => mbz (f.c == 0 && f.k == 0 && f.x == 0) (.fmaxF64 f.d f.a f.b)
  | 0x08 => mbz (f.c == 0 && f.k == 0 && f.x == 0) (.feqF64 f.d f.a f.b)
  | 0x09 => mbz (f.c == 0 && f.k == 0 && f.x == 0) (.fltF64 f.d f.a f.b)
  | 0x0A => mbz (f.c == 0 && f.k == 0 && f.x == 0) (.fleF64 f.d f.a f.b)
  | 0x0B => mbz (f.b == 0 && f.c == 0 && f.k == 0 && f.x == 0) (.fclassF64 f.d f.a)
  | 0x0C => mbz (f.c == 0 && f.k == 0 && f.x == 0) (.fsgnF64 f.d f.a f.b)
  | 0x0D => mbz (f.c == 0 && f.k == 0 && f.x == 0) (.fsgnnF64 f.d f.a f.b)
  | 0x0E => mbz (f.c == 0 && f.k == 0 && f.x == 0) (.fsgnxF64 f.d f.a f.b)
  | _ => .error .function

/-- OP 0x31 (03 R64, R65). -/
def decodeF32 (f : SFields) : Except Reject Instr :=
  match f.fn.toNat with
  | 0x00 => withRms f (f.c == 0) (fun r => .faddF32 r f.d f.a f.b)
  | 0x01 => withRms f (f.c == 0) (fun r => .fsubF32 r f.d f.a f.b)
  | 0x02 => withRms f (f.c == 0) (fun r => .fmulF32 r f.d f.a f.b)
  | 0x03 => withRms f (f.c == 0) (fun r => .fdivF32 r f.d f.a f.b)
  | 0x04 => withRms f (f.b == 0 && f.c == 0) (fun r => .fsqrtF32 r f.d f.a)
  | 0x05 => withRms f true (fun r => .fmaF32 r f.d f.a f.b f.c)
  | 0x06 => mbz (f.c == 0 && f.k == 0 && f.x == 0) (.fminF32 f.d f.a f.b)
  | 0x07 => mbz (f.c == 0 && f.k == 0 && f.x == 0) (.fmaxF32 f.d f.a f.b)
  | 0x08 => mbz (f.c == 0 && f.k == 0 && f.x == 0) (.feqF32 f.d f.a f.b)
  | 0x09 => mbz (f.c == 0 && f.k == 0 && f.x == 0) (.fltF32 f.d f.a f.b)
  | 0x0A => mbz (f.c == 0 && f.k == 0 && f.x == 0) (.fleF32 f.d f.a f.b)
  | 0x0B => mbz (f.b == 0 && f.c == 0 && f.k == 0 && f.x == 0) (.fclassF32 f.d f.a)
  | 0x0C => mbz (f.c == 0 && f.k == 0 && f.x == 0) (.fsgnF32 f.d f.a f.b)
  | 0x0D => mbz (f.c == 0 && f.k == 0 && f.x == 0) (.fsgnnF32 f.d f.a f.b)
  | 0x0E => mbz (f.c == 0 && f.k == 0 && f.x == 0) (.fsgnxF32 f.d f.a f.b)
  | _ => .error .function

/-- OP 0x32 (03 R69). -/
def decodeFcvt (f : SFields) : Except Reject Instr :=
  match f.fn.toNat with
  | 0x00 => withRms f (f.b == 0 && f.c == 0) (fun r => .fcvtF32F64 r f.d f.a)
  | 0x01 => withRms f (f.b == 0 && f.c == 0) (fun r => .fcvtF64F32 r f.d f.a)
  | 0x02 => withRms f (f.b == 0 && f.c == 0) (fun r => .fcvtF64I64 r f.d f.a)
  | 0x03 => withRms f (f.b == 0 && f.c == 0) (fun r => .fcvtF64N64 r f.d f.a)
  | 0x04 => withRms f (f.b == 0 && f.c == 0) (fun r => .fcvtF32I64 r f.d f.a)
  | 0x05 => withRms f (f.b == 0 && f.c == 0) (fun r => .fcvtF32N64 r f.d f.a)
  | 0x06 => withRms f (f.b == 0 && f.c == 0) (fun r => .fcvtI64F64 r f.d f.a)
  | 0x07 => withRms f (f.b == 0 && f.c == 0) (fun r => .fcvtN64F64 r f.d f.a)
  | 0x08 => withRms f (f.b == 0 && f.c == 0) (fun r => .fcvtI64F32 r f.d f.a)
  | 0x09 => withRms f (f.b == 0 && f.c == 0) (fun r => .fcvtN64F32 r f.d f.a)
  | _ => .error .function

/-- OP 0x40, S-form (03 R71). -/
def decodeLoad (f : SFields) : Except Reject Instr :=
  match f.fn.toNat with
  | 0x00 => mbz (f.b == 0 && f.c == 0 && f.k == 0) (.ldI8 f.d f.a f.x)
  | 0x01 => mbz (f.b == 0 && f.c == 0 && f.k == 0) (.ldN8 f.d f.a f.x)
  | 0x02 => mbz (f.b == 0 && f.c == 0 && f.k == 0) (.ldI16 f.d f.a f.x)
  | 0x03 => mbz (f.b == 0 && f.c == 0 && f.k == 0) (.ldN16 f.d f.a f.x)
  | 0x04 => mbz (f.b == 0 && f.c == 0 && f.k == 0) (.ldI32 f.d f.a f.x)
  | 0x05 => mbz (f.b == 0 && f.c == 0 && f.k == 0) (.ldN32 f.d f.a f.x)
  | 0x06 => mbz (f.b == 0 && f.c == 0 && f.k == 0) (.ldI64 f.d f.a f.x)
  | _ => .error .function

/-- OP 0x41, S-form (03 R71). -/
def decodeStore (f : SFields) : Except Reject Instr :=
  match f.fn.toNat with
  | 0x00 => mbz (f.b == 0 && f.c == 0 && f.k == 0) (.st8 f.d f.a f.x)
  | 0x01 => mbz (f.b == 0 && f.c == 0 && f.k == 0) (.st16 f.d f.a f.x)
  | 0x02 => mbz (f.b == 0 && f.c == 0 && f.k == 0) (.st32 f.d f.a f.x)
  | 0x03 => mbz (f.b == 0 && f.c == 0 && f.k == 0) (.st64 f.d f.a f.x)
  | _ => .error .function

/-- OP 0x42 and 0x43 (03 R75): the scopes lg to pk, the width in FN[3]. -/
def decodeAcqRel (f : SFields) (w64 w32 : Scope → Instr) : Except Reject Instr :=
  match Scope.ofCode (f.fn.extractLsb' 0 3) with
  | none => .error .function
  | some .pd => .error .function
  | some sc =>
    if f.fn.extractLsb' 4 2 = 0 then
      mbz (f.b == 0 && f.c == 0 && f.k == 0) (if f.fn.getLsbD 3 then w32 sc else w64 sc)
    else .error .function

/-- OP 0x44 (03 R77). -/
def decodeAmo (f : SFields) : Except Reject Instr :=
  if f.fn.getLsbD 5 then .error .function else
  let w := f.fn.getLsbD 4
  let ok := f.c == 0 && f.k == 0
  match (f.fn.extractLsb' 0 4).toNat with
  | 0 => mbz ok (.amoSwap w f.d f.a f.b f.x)
  | 1 => mbz ok (.amoAdd w f.d f.a f.b f.x)
  | 2 => mbz ok (.amoAnd w f.d f.a f.b f.x)
  | 3 => mbz ok (.amoOr w f.d f.a f.b f.x)
  | 4 => mbz ok (.amoXor w f.d f.a f.b f.x)
  | 5 => mbz ok (.amoMinI w f.d f.a f.b f.x)
  | 6 => mbz ok (.amoMaxI w f.d f.a f.b f.x)
  | 7 => mbz ok (.amoMinN w f.d f.a f.b f.x)
  | 8 => mbz ok (.amoMaxN w f.d f.a f.b f.x)
  | _ => .error .function

/-- OP 0x45 (03 R78). -/
def decodeCas (f : SFields) : Except Reject Instr :=
  match f.fn.toNat with
  | 0x00 => mbz (f.k == 0) (.cas64 f.d f.a f.b f.c f.x)
  | 0x01 => mbz (f.k == 0) (.cas32 f.d f.a f.b f.c f.x)
  | _ => .error .function

/-- OP 0x46 (03 R80). -/
def decodePref (f : SFields) : Except Reject Instr :=
  match f.fn.toNat with
  | 0x00 => mbz (f.d == 0 && f.b == 0 && f.c == 0 && f.k == 0) (.prefd f.a f.x)
  | 0x01 => mbz (f.d == 0 && f.b == 0 && f.c == 0 && f.k == 0) (.prefi f.a f.x)
  | _ => .error .function

/-- OP 0x50 (03 R81). -/
def decodeBranch (f : SFields) : Except Reject Instr :=
  match f.fn.toNat with
  | 0x00 => mbz (f.d == 0 && f.c == 0 && f.k == 0) (.beq f.a f.b f.x)
  | 0x01 => mbz (f.d == 0 && f.c == 0 && f.k == 0) (.bne f.a f.b f.x)
  | 0x02 => mbz (f.d == 0 && f.c == 0 && f.k == 0) (.bltI64 f.a f.b f.x)
  | 0x03 => mbz (f.d == 0 && f.c == 0 && f.k == 0) (.bgeI64 f.a f.b f.x)
  | 0x04 => mbz (f.d == 0 && f.c == 0 && f.k == 0) (.bltN64 f.a f.b f.x)
  | 0x05 => mbz (f.d == 0 && f.c == 0 && f.k == 0) (.bgeN64 f.a f.b f.x)
  | _ => .error .function

/-- OP 0x58 (03 R86). -/
def decodeSetvl (f : SFields) : Except Reject Instr :=
  match f.fn.toNat with
  | 0x00 => mbz (f.b == 0 && f.c == 0 && f.k == 0 && f.x == 0) (.setvlReg f.d f.a)
  | 0x01 => mbz (f.a == 0 && f.b == 0 && f.c == 0 && f.k == 0) (.setvlImm f.d f.x)
  | 0x02 => mbz (f.b.extractLsb' 2 3 == 7 && f.c == 0 && f.k == 0 && f.x == 0) (.setvlStream f.d f.a (f.b.extractLsb' 0 2))
  | _ => .error .function

/-- OP 0x59 (03 R85). -/
def decodeSettype (f : SFields) : Except Reject Instr :=
  match f.fn.toNat with
  | 0x00 => mbz (f.a == 0 && f.b == 0 && f.c == 0 && f.k == 0 && f.x.extractLsb' 7 12 == 0) (.settypeImm f.d (f.x.extractLsb' 0 7))
  | 0x01 => mbz (f.b == 0 && f.c == 0 && f.k == 0 && f.x == 0) (.settypeReg f.d f.a)
  | _ => .error .function

/-- OP 0x5A (03 R88). -/
def decodeSetshape (f : SFields) : Except Reject Instr :=
  match f.fn.toNat with
  | 0x00 => mbz (f.c == 0 && f.k == 0 && f.x == 0) (.setshapeReg f.d f.a f.b)
  | 0x01 => mbz (f.a == 0 && f.b == 0 && f.c == 0 && f.k == 0 && f.x.extractLsb' 12 7 == 0) (.setshapeImm f.d (f.x.extractLsb' 0 6) (f.x.extractLsb' 6 6))
  | _ => .error .function

/-- OP 0x5B (03 R89). -/
def decodeCsr (f : SFields) : Except Reject Instr :=
  match f.fn.toNat with
  | 0x00 => mbz (f.a == 0 && f.b == 0 && f.c == 0 && f.k == 0 && f.x.extractLsb' 12 7 == 0) (.csrr f.d (f.x.extractLsb' 0 12))
  | 0x01 => mbz (f.d == 0 && f.b == 0 && f.c == 0 && f.k == 0 && f.x.extractLsb' 12 7 == 0) (.csrw (f.x.extractLsb' 0 12) f.a)
  | 0x02 => mbz (f.b == 0 && f.c == 0 && f.k == 0 && f.x.extractLsb' 12 7 == 0) (.csrrw f.d (f.x.extractLsb' 0 12) f.a)
  | 0x03 => mbz (f.b == 0 && f.c == 0 && f.k == 0 && f.x.extractLsb' 12 7 == 0) (.csrs f.d (f.x.extractLsb' 0 12) f.a)
  | 0x04 => mbz (f.b == 0 && f.c == 0 && f.k == 0 && f.x.extractLsb' 12 7 == 0) (.csrc f.d (f.x.extractLsb' 0 12) f.a)
  | _ => .error .function

/-- OP 0x60 (04 R102, R103). -/
def decodeTrap (f : SFields) : Except Reject Instr :=
  match f.fn.toNat with
  | 0x00 => mbz (f.d == 0 && f.a == 0 && f.b == 0 && f.c == 0 && f.k == 0 && f.x.extractLsb' 12 7 == 0) (.trap (f.x.extractLsb' 0 12))
  | 0x01 => mbz (f.d == 0 && f.a == 0 && f.b == 0 && f.c == 0 && f.k == 0 && f.x == 0) .eret
  | _ => .error .function

/-- OP 0x61 (04 R105). -/
def decodeImage (f : SFields) : Except Reject Instr :=
  match f.fn.toNat with
  | 0x00 => mbz (f.b == 0 && f.c == 0 && f.k == 0 && f.x == 0) (.vsave f.d f.a)
  | 0x01 => mbz (f.d == 0 && f.b == 0 && f.c == 0 && f.k == 0 && f.x == 0) (.vrest f.a)
  | _ => .error .function

/-- OP 0x62 (11 R256). -/
def decodeFence (f : SFields) : Except Reject Instr :=
  if f.fn.extractLsb' 4 2 = 0 then
    let ok := f.a == 0 && f.b == 0 && f.c == 0 && f.k == 0 && f.x.extractLsb' 14 5 == 0
      && f.x.extractLsb' 0 7 != 0 && f.x.extractLsb' 7 7 != 0
    match Scope.ofCode (f.fn.extractLsb' 0 3) with
    | none => .error .function
    | some .pd => mbz ok (.fencePd (f.fn.getLsbD 3) f.d (f.x.extractLsb' 0 7) (f.x.extractLsb' 7 7))
    | some sc => mbz (ok && f.d == 0) (.fence sc (f.fn.getLsbD 3) (f.x.extractLsb' 0 7) (f.x.extractLsb' 7 7))
  else .error .function

/-- OP 0x63 (14 R268). -/
def decodeWait (f : SFields) : Except Reject Instr :=
  match f.fn.toNat with
  | 0x00 => mbz (f.k == 0) (.waitaddr f.d f.a f.b f.c f.x)
  | 0x01 => mbz (f.k == 0) (.waitaddr32 f.d f.a f.b f.c f.x)
  | 0x02 => mbz (f.b == 0 && f.k == 0 && f.x == 0) (.cewait f.d f.a f.c)
  | 0x03 => mbz (f.d == 0 && f.c == 0 && f.k == 0) (.lnempty f.a f.b f.x)
  | _ => .error .function

/-- OP 0x65 (15 R282). -/
def decodeThread (f : SFields) : Except Reject Instr :=
  match f.fn.toNat with
  | 0x00 => mbz (f.b == 0 && f.c == 0 && f.k == 0 && f.x == 0) (.join f.d f.a)
  | 0x01 => mbz (f.a == 0 && f.b == 0 && f.c == 0 && f.k == 0 && f.x == 0) (.leave f.d)
  | 0x02 => mbz (f.d == 0 && f.a == 0 && f.b == 0 && f.c == 0 && f.k == 0 && f.x.extractLsb' 1 18 == 0) (if f.x.getLsbD 0 then .yieldPark else .yield)
  | 0x03 => mbz (f.d == 0 && f.b == 0 && f.c == 0 && f.k == 0 && f.x == 0) (.exit f.a)
  | 0x04 => mbz (f.d == 0 && f.a == 0 && f.b == 0 && f.c == 0 && f.k == 0 && f.x.extractLsb' 3 16 == 0) (.hprio (f.x.extractLsb' 0 3))
  | 0x05 => mbz (f.d == 0 && f.b == 0 && f.c == 0 && f.k == 0 && f.x == 0) (.hafn f.a)
  | 0x06 => mbz (f.b == 0 && f.c == 0 && f.k == 0 && f.x == 0) (.lend f.d f.a)
  | _ => .error .function

/-- OP 0x66 (15 R282). -/
def decodeBuoy (f : SFields) : Except Reject Instr :=
  match f.fn.toNat with
  | 0x00 => mbz (f.c == 0 && f.k == 0) (.byinit f.d f.a f.b f.x)
  | 0x01 => mbz (f.b == 0 && f.c == 0 && f.k == 0 && f.x.extractLsb' 8 11 == 0 && f.x.extractLsb' 0 8 != 0) (.byarrive f.d f.a (f.x.extractLsb' 0 8))
  | 0x02 => mbz (f.k == 0) (.bywait f.d f.a f.b f.c f.x)
  | _ => .error .function

/-- Read TY and Z of a masked typed form (02 R36, 08 R168): `allowed` is the OP's TY set. -/
def withTy (f : SFields) (allowed : Ty → Bool) (ok : Bool) (g : Ty → Mask → EOp) : Except Reject EOp :=
  match Ty.ofCode (f.fn.extractLsb' 0 5) with
  | none => .error .function
  | some ty =>
    if allowed ty then mbz (ok && Mask.ok ⟨f.k, f.fn.getLsbD 5⟩) (g ty ⟨f.k, f.fn.getLsbD 5⟩) else .error .function

/-- A typed form whose FN[5] must be zero; it takes the mask register K, or none where `masked` is false. -/
def withTyNoZ (f : SFields) (allowed : Ty → Bool) (masked ok : Bool) (g : Ty → KReg → EOp) : Except Reject EOp :=
  match Ty.ofCode (f.fn.extractLsb' 0 5) with
  | none => .error .function
  | some ty =>
    if allowed ty && !f.fn.getLsbD 5 then mbz (ok && (masked || f.k == 0)) (g ty f.k) else .error .function

/-- A masked form whose FN[4:0] is fixed. -/
def withFn (f : SFields) (fn : BitVec 5) (ok : Bool) (g : Mask → EOp) : Except Reject EOp :=
  if f.fn.extractLsb' 0 5 = fn then mbz (ok && Mask.ok ⟨f.k, f.fn.getLsbD 5⟩) (g ⟨f.k, f.fn.getLsbD 5⟩)
  else .error .function

/-- A masked IEEE form with RMS in X[2:0] (08 R174): X[17:3] is zero, X[18] is SB where the form has one. -/
def withFloat (f : SFields) (sb : Bool) (g : Ty → Mask → Rms → EOp) : Except Reject EOp :=
  match Rms.ofCode (f.x.extractLsb' 0 3) with
  | none => .error .mustBeZero
  | some r => withTy f Ty.ieee (f.c == 0 && f.x.extractLsb' 3 15 == 0 && (sb || !f.x.getLsbD 18)) (fun ty m => g ty m r)

/-- The second source named by B and SB. -/
def SFields.src (f : SFields) : VSrc := VSrc.ofField (f.x.getLsbD 18) f.b

/-- A field that names a k or e register has bits [4:3] zero, one that names a tile bits [4:2] (02 R35). -/
def isK (r : BitVec 5) : Bool := r.extractLsb' 3 2 == 0
def isM (r : BitVec 5) : Bool := r.extractLsb' 2 3 == 0
/-- A field that names a stream holds 28 to 31 (09 R204). -/
def isStream (r : BitVec 5) : Bool := r.extractLsb' 2 3 == 7

/-- vcmp of either kind (08 R175, R177). -/
def decodeVcmp (f : SFields) (allowed : Ty → Bool) (g : Pred → Ty → Mask → EOp) : Except Reject EOp :=
  match Pred.ofCode (f.x.extractLsb' 0 3) with
  | none => .error .mustBeZero
  | some p => withTy f allowed (f.c == 0 && isK f.d && f.x.extractLsb' 3 15 == 0) (g p)

/-- OP 0x8A (08 R176). -/
def decodeVsgn (f : SFields) : Except Reject EOp :=
  let ok := f.c == 0 && f.x.extractLsb' 2 16 == 0
  match (f.x.extractLsb' 0 2).toNat with
  | 0 => withTy f Ty.ieee ok (fun ty m => .vsgn ty m f.d f.a f.src)
  | 1 => withTy f Ty.ieee ok (fun ty m => .vsgnn ty m f.d f.a f.src)
  | 2 => withTy f Ty.ieee ok (fun ty m => .vsgnx ty m f.d f.a f.src)
  | _ => .error .mustBeZero

/-- OP 0xA4 (08 R181). -/
def decodeMaskOp (f : SFields) : Except Reject EOp :=
  match f.fn.toNat with
  | 0x00 => mbz (f.c == 0 && f.k == 0 && f.x == 0 && isK f.d && isK f.a && isK f.b) (.kand (f.d.extractLsb' 0 3) (f.a.extractLsb' 0 3) (f.b.extractLsb' 0 3))
  | 0x01 => mbz (f.c == 0 && f.k == 0 && f.x == 0 && isK f.d && isK f.a && isK f.b) (.kor (f.d.extractLsb' 0 3) (f.a.extractLsb' 0 3) (f.b.extractLsb' 0 3))
  | 0x02 => mbz (f.c == 0 && f.k == 0 && f.x == 0 && isK f.d && isK f.a && isK f.b) (.kxor (f.d.extractLsb' 0 3) (f.a.extractLsb' 0 3) (f.b.extractLsb' 0 3))
  | 0x03 => mbz (f.c == 0 && f.k == 0 && f.x == 0 && isK f.d && isK f.a && isK f.b) (.kandn (f.d.extractLsb' 0 3) (f.a.extractLsb' 0 3) (f.b.extractLsb' 0 3))
  | 0x04 => mbz (f.c == 0 && f.k == 0 && f.x == 0 && isK f.d && isK f.a && f.b == 0) (.knot (f.d.extractLsb' 0 3) (f.a.extractLsb' 0 3))
  | 0x05 => mbz (f.c == 0 && f.k == 0 && f.x == 0 && isK f.d && isK f.a && f.a == 0 && f.b == 0) (.kset (f.d.extractLsb' 0 3))
  | _ => .error .function

/-- OP 0xA7 (08 R182). -/
def decodeVcvt (f : SFields) : Except Reject EOp :=
  match Rms.ofCode (f.x.extractLsb' 14 3), Ty.ofCode (BitVec.ofBool (f.x.getLsbD 8) ++ f.x.extractLsb' 0 4),
      Ty.ofCode (BitVec.ofBool (f.x.getLsbD 9) ++ f.x.extractLsb' 4 4) with
  | some r, some dst, some src =>
    withFn f 0 (f.b == 0 && f.c == 0 && f.x.extractLsb' 17 2 == 0 && cvtOk (f.x.extractLsb' 10 4) dst src)
      (fun m => .vcvt m r (f.x.extractLsb' 10 4) dst src f.d f.a)
  | _, _, _ => .error .mustBeZero

/-- OP 0xA9 (08 R188). -/
def decodeVsalsel (f : SFields) : Except Reject EOp :=
  match SalPat.ofCode (f.x.extractLsb' 0 2) with
  | none => .error .mustBeZero
  | some p => withTy f Ty.sal (f.c == 0 && isK f.d && f.x.extractLsb' 2 17 == 0)
      (fun ty m => .vsalsel p ty m (f.d.extractLsb' 0 3) f.a f.b)

/-- RE of an Awl form (18 R322): RE times the element size is at most 4096. -/
def awlOk (ty : Ty) (re : BitVec 12) : Bool := (re.toNat + 1) * (ty.fmt.width / 8) ≤ 4096

/-- OP 0xB6 to 0xB8 (18 R322). -/
def decodeAwl (f : SFields) (op : Nat) : Except Reject EOp :=
  let re := f.x.extractLsb' 0 12
  let sh := f.x.extractLsb' 12 5
  let ok := f.c == 0 && f.x.extractLsb' 17 2 == 0
  match op with
  | 0xB6 => withTy f (fun ty => ty.byteWide && awlOk ty re) ok (fun ty m => .vgath ty m f.d f.a f.b sh re)
  | 0xB7 => withTyNoZ f (fun ty => ty.byteWide && awlOk ty re) true ok (fun ty k => .vscat ty k f.d f.a f.b sh re)
  | _ => withTyNoZ f (fun ty => ty.reducible && awlOk ty re) true ok (fun ty k => .vscadd ty k f.d f.a f.b sh re)

/-- OP 0xB9 (09 R204). -/
def decodeStream (f : SFields) : Except Reject EOp :=
  match f.fn.toNat with
  | 0x00 => mbz (isStream f.d && f.b == 0 && f.c == 0 && f.k == 0) (.sopen (f.d.extractLsb' 0 2) f.a f.x)
  | 0x01 => mbz (isStream f.d && f.b == 0 && f.c == 0 && f.k == 0 && f.x == 0) (.sadv (f.d.extractLsb' 0 2) f.a)
  | 0x02 => mbz (isStream f.a && f.b == 0 && f.c == 0 && f.k == 0 && f.x == 0) (.stend f.d (f.a.extractLsb' 0 2))
  | 0x03 => mbz (isStream f.d && f.a == 0 && f.b == 0 && f.c == 0 && f.k == 0 && f.x == 0) (.sclose (f.d.extractLsb' 0 2))
  | _ => .error .function

/-- OP 0xBA (09 R214). -/
def decodeFibre (f : SFields) : Except Reject EOp :=
  match f.fn.toNat with
  | 0x00 => mbz (isStream f.d && f.b == 0 && f.c == 0 && f.k == 0) (.fopen (f.d.extractLsb' 0 2) f.a f.x)
  | 0x01 => mbz (isStream f.d && f.a == 0 && f.b == 0 && f.c == 0 && f.k == 0 && f.x == 0) (.fadv (f.d.extractLsb' 0 2))
  | 0x02 => mbz (isStream f.a && f.b == 0 && f.c == 0 && f.k == 0 && f.x == 0) (.ftend f.d (f.a.extractLsb' 0 2))
  | 0x03 => mbz (isStream f.d && f.a == 0 && f.b == 0 && f.c == 0 && f.k == 0 && f.x == 0) (.fclose (f.d.extractLsb' 0 2))
  | _ => .error .function

/-- OP 0xBB (09 R223, R224). -/
def decodeGam (f : SFields) : Except Reject EOp :=
  match f.fn.toNat with
  | 0x00 => mbz (f.b == 0 && f.c == 0 && f.k == 0 && f.x == 0) (.vgamRd f.d f.a)
  | 0x01 => mbz (f.b == 0 && f.c == 0 && f.k == 0 && f.x == 0) (.vgamWr f.d f.a)
  | _ => .error .function

/-- OP 0xC0 (09 R217). -/
def decodeVred (f : SFields) : Except Reject EOp :=
  match ROp.ofCode (f.x.extractLsb' 0 3) with
  | none => .error .mustBeZero
  | some op => withTyNoZ f (fun ty => ty.reducible && (ty.integer || op == .add || op == .min || op == .max)) true
      (f.c == 0 && f.x.extractLsb' 3 16 == 0) (fun ty k => .vred op ty k f.d f.a f.b)

/-- OP 0xC1 (09 R218). -/
def decodeVscan (f : SFields) : Except Reject EOp :=
  match ROp.ofCode (f.x.extractLsb' 0 3) with
  | none => .error .mustBeZero
  | some op => withTy f Ty.reducible
      (f.c == 0 && f.x.extractLsb' 4 15 == 0 && (op == .add || op == .min || op == .max))
      (fun ty m => .vscan op (f.x.getLsbD 3) ty m f.d f.a f.b)

/-- OP 0xE0 (21 R395). -/
noncomputable def decodeRred (f : SFields) : Except Reject Instr :=
  match ROp.ofCode (f.fn.extractLsb' 0 3), RTy.ofCode (f.fn.extractLsb' 3 3) with
  | some op, some ty =>
    if ty.isFloat && op != .add then .error .function
    else mbz (f.d == 0 && f.c == 0 && f.k == 0) (.rred op ty f.a f.b f.x)
  | _, _ => .error .function

/-- Continue when FN is zero. -/
def fn0 {α : Type} (f : SFields) (r : Except Reject α) : Except Reject α := if f.fn = 0 then r else .error .function

/-- OP 0x00 to 0x7F and 0xE0 to 0xE2, the A-class S-forms (02 R39). -/
noncomputable def decodeSA (f : SFields) : Except Reject Instr :=
  match f.op.toNat with
  | 0x01 => decodeAluReg f
  | 0x02 => decodeAluImm f
  | 0x03 => decodeMulDiv f
  | 0x04 => decodeUnary f
  | 0x05 => decodeThree f
  | 0x06 => decodeConst f
  | 0x30 => decodeF64 f
  | 0x31 => decodeF32 f
  | 0x32 => decodeFcvt f
  | 0x40 => decodeLoad f
  | 0x41 => decodeStore f
  | 0x42 => decodeAcqRel f (fun sc => .ldAcq sc f.d f.a f.x) (fun sc => .ldAcqN32 sc f.d f.a f.x)
  | 0x43 => decodeAcqRel f (fun sc => .stRel sc f.d f.a f.x) (fun sc => .stRel32 sc f.d f.a f.x)
  | 0x44 => decodeAmo f
  | 0x45 => decodeCas f
  | 0x46 => decodePref f
  | 0x50 => decodeBranch f
  | 0x51 => fn0 f (mbz (f.a == 0 && f.b == 0 && f.c == 0 && f.k == 0) (.jal f.d f.x))
  | 0x52 => fn0 f (mbz (f.b == 0 && f.c == 0 && f.k == 0) (.jalr f.d f.a f.x))
  | 0x58 => decodeSetvl f
  | 0x59 => decodeSettype f
  | 0x5A => decodeSetshape f
  | 0x5B => decodeCsr f
  | 0x60 => decodeTrap f
  | 0x61 => decodeImage f
  | 0x62 => decodeFence f
  | 0x63 => decodeWait f
  | 0x64 => fn0 f (mbz (f.b == 0 && f.c == 0 && f.k == 0) (.launch f.d f.a f.x))
  | 0x65 => decodeThread f
  | 0x66 => decodeBuoy f
  | 0x6E => fn0 f (mbz (f.d == 0 && f.a == 0 && f.b == 0 && f.c == 0 && f.k == 0 && f.x.extractLsb' 3 16 == 0
      && f.x.extractLsb' 0 3 != 0) (.drain (f.x.extractLsb' 0 3)))
  | 0x70 => fn0 f (mbz (f.b == 0 && f.c == 0 && f.k == 0) (.welt f.d f.a f.x))
  | 0x71 => fn0 f (mbz (f.b == 0 && f.c == 0 && f.k == 0 && f.x == 0) (.bcnopen f.d f.a))
  | 0x72 => fn0 f (mbz (f.c == 0 && f.k == 0) (.beacon f.d f.a f.b (f.x.extractLsb' 15 4) (f.x.extractLsb' 0 15)))
  | 0x73 => fn0 f (mbz (f.a == 0 && f.b == 0 && f.c == 0 && f.k == 0 && f.x.extractLsb' 4 15 == 0)
      (.bcnclose f.d (f.x.extractLsb' 0 4)))
  | 0x77 => fn0 f (mbz (f.d == 0 && f.b == 0 && f.c == 0 && f.k == 0) (.cbkld f.a f.x))
  | 0xE0 => decodeRred f
  | 0xE1 => fn0 f (mbz (f.c == 0 && f.k == 0 && f.x.extractLsb' 4 15 == 0) (.rwset f.d (f.x.extractLsb' 0 4) f.a f.b))
  | 0xE2 => fn0 f (mbz (f.d == 0 && f.c == 0 && f.k == 0 && f.x == 0) (.fmap f.a f.b))
  | _ => .error .opcode

/-- OP 0x80 to 0xDF, the E-class S-forms (02 R39). -/
def decodeSE (f : SFields) : Except Reject EOp :=
  match f.op.toNat with
  | 0x80 => withFloat f true (fun ty m r => .vaddFp ty m r f.d f.a f.src)
  | 0x81 => withFloat f true (fun ty m r => .vsubFp ty m r f.d f.a f.src)
  | 0x82 => withFloat f true (fun ty m r => .vmulFp ty m r f.d f.a f.src)
  | 0x83 => withFloat f true (fun ty m r => .vdiv ty m r f.d f.a f.src)
  | 0x84 => if f.b = 0 then withFloat f false (fun ty m r => .vsqrt ty m r f.d f.a) else .error .mustBeZero
  | 0x85 => withFloat f true (fun ty m r => .vfma ty m r f.d f.a f.src)
  | 0x86 => withFloat f true (fun ty m r => .vfnma ty m r f.d f.a f.src)
  | 0x87 => withFloat f true (fun ty m r => .vminFp ty m r f.d f.a f.src)
  | 0x88 => withFloat f true (fun ty m r => .vmaxFp ty m r f.d f.a f.src)
  | 0x89 => decodeVcmp f Ty.ieee (fun p ty m => .vcmpFp p ty m (f.d.extractLsb' 0 3) f.a f.src)
  | 0x8A => decodeVsgn f
  | 0x8B => withTy f Ty.ieee (f.c == 0 && isK f.b && f.x.extractLsb' 1 18 == 0)
      (fun ty m => .vscl (f.x.getLsbD 0) ty m f.d f.a (f.b.extractLsb' 0 3))
  | 0x90 => withTy f Ty.integer (f.c == 0 && f.x.extractLsb' 0 18 == 0) (fun ty m => .vaddInt ty m f.d f.a f.src)
  | 0x91 => withTy f Ty.integer (f.c == 0 && f.x.extractLsb' 0 18 == 0) (fun ty m => .vsubInt ty m f.d f.a f.src)
  | 0x92 => withTy f Ty.integer (f.c == 0 && f.x.extractLsb' 0 18 == 0) (fun ty m => .vaddSat ty m f.d f.a f.src)
  | 0x93 => withTy f Ty.integer (f.c == 0 && f.x.extractLsb' 0 18 == 0) (fun ty m => .vsubSat ty m f.d f.a f.src)
  | 0x94 => withTy f Ty.integer (f.c == 0 && f.x.extractLsb' 0 18 == 0) (fun ty m => .vmulInt ty m f.d f.a f.src)
  | 0x95 => withTy f Ty.integer (f.c == 0 && f.x.extractLsb' 0 18 == 0) (fun ty m => .vmulh ty m f.d f.a f.src)
  | 0x96 => withTy f Ty.integer (f.c == 0 && f.x.extractLsb' 0 18 == 0) (fun ty m => .vmadd ty m f.d f.a f.src)
  | 0x97 => withTy f Ty.integer (f.c == 0 && f.x.extractLsb' 0 18 == 0) (fun ty m => .vminInt ty m f.d f.a f.src)
  | 0x98 => withTy f Ty.integer (f.c == 0 && f.x.extractLsb' 0 18 == 0) (fun ty m => .vmaxInt ty m f.d f.a f.src)
  | 0x9A => withTy f Ty.integer (f.c == 0 && f.x.extractLsb' 0 18 == 0) (fun ty m => .vsll ty m f.d f.a f.src)
  | 0x9B => withTy f Ty.integer (f.c == 0 && f.x.extractLsb' 0 18 == 0) (fun ty m => .vsrl ty m f.d f.a f.src)
  | 0x9C => withTy f Ty.integer (f.c == 0 && f.x.extractLsb' 0 18 == 0) (fun ty m => .vsra ty m f.d f.a f.src)
  | 0x99 => decodeVcmp f Ty.integer (fun p ty m => .vcmpInt p ty m (f.d.extractLsb' 0 3) f.a f.src)
  | 0x9D => withTy f Ty.integer (f.a == 0 && f.b == 0 && f.c == 0 && f.x == 0) (fun ty m => .vid ty m f.d)
  | 0xA0 => withFn f 0 (f.c == 0 && f.x.extractLsb' 0 18 == 0) (fun m => .vand m f.d f.a f.src)
  | 0xA1 => withFn f 0 (f.c == 0 && f.x.extractLsb' 0 18 == 0) (fun m => .vor m f.d f.a f.src)
  | 0xA2 => withFn f 0 (f.c == 0 && f.x.extractLsb' 0 18 == 0) (fun m => .vxor m f.d f.a f.src)
  | 0xA3 => withFn f 0 (f.b == 0 && f.c == 0 && f.x == 0) (fun m => .vmv m f.d f.a)
  | 0xA4 => decodeMaskOp f
  | 0xA5 => withTy f Ty.any (f.b == 0 && f.c == 0 && f.x == 0) (fun ty m => .vbcast ty m f.d f.a)
  | 0xA6 => withTyNoZ f Ty.any false (f.c == 0 && f.x == 0) (fun ty _ => .vmvx ty f.d f.a f.b)
  | 0xA7 => decodeVcvt f
  | 0xA8 => withTyNoZ f Ty.float8 true (f.b == 0 && f.c == 0 && f.x == 0 && isK f.d)
      (fun ty k => .vsegmax ty k (f.d.extractLsb' 0 3) f.a)
  | 0xA9 => decodeVsalsel f
  | 0xAA => withFn f 0x1B (f.c == 0 && f.x == 0) (fun m => .vrngN32 m f.d f.a f.b)
  | 0xB0 => withTy f Ty.any (f.b == 0 && f.c == 0) (fun ty m => .vld ty m f.d f.a f.x)
  | 0xB1 => withTyNoZ f Ty.any true (f.b == 0 && f.c.extractLsb' 1 4 == 0)
      (fun ty k => .vst ty k (f.c.getLsbD 0) f.d f.a f.x)
  | 0xB2 => withTy f Ty.byteWide (f.c == 0) (fun ty m => .vlds ty m f.d f.a f.b f.x)
  | 0xB3 => withTyNoZ f Ty.byteWide true (f.c.extractLsb' 1 4 == 0)
      (fun ty k => .vsts ty k (f.c.getLsbD 0) f.d f.a f.b f.x)
  | 0xB4 => withTy f Ty.byteWide (f.c == 0)
      (fun ty m => .vldx ty m f.d f.a f.b (f.x.extractLsb' 15 4) (f.x.extractLsb' 0 15))
  | 0xB5 => withTyNoZ f Ty.byteWide true (f.c.extractLsb' 1 4 == 0)
      (fun ty k => .vstx ty k (f.c.getLsbD 0) f.d f.a f.b (f.x.extractLsb' 15 4) (f.x.extractLsb' 0 15))
  | 0xB6 => decodeAwl f 0xB6
  | 0xB7 => decodeAwl f 0xB7
  | 0xB8 => decodeAwl f 0xB8
  | 0xB9 => decodeStream f
  | 0xBA => decodeFibre f
  | 0xBB => decodeGam f
  | 0xC0 => decodeVred f
  | 0xC1 => decodeVscan f
  | 0xC2 => withFn f 0 (f.c == 0 && f.x == 0) (fun m => .vperm m f.d f.a f.b)
  | 0xC3 => withFn f 0 (f.c == 0 && f.x.extractLsb' 1 18 == 0)
      (fun m => if f.x.getLsbD 0 then .vslideDn m f.d f.a f.b else .vslideUp m f.d f.a f.b)
  | 0xC4 => fn0 f (mbz (f.b == 0 && f.c == 0 && f.x == 0) (.vcompress f.k f.d f.a))
  | 0xC5 =>
    if f.fn = 0 then mbz (f.b == 0 && f.c == 0 && f.k == 0 && f.x == 0 && isK f.a) (.kpopc f.d (f.a.extractLsb' 0 3))
    else if f.fn = 1 then
      mbz (f.b == 0 && f.c == 0 && f.k == 0 && f.x == 0 && isK f.a) (.kfirst f.d (f.a.extractLsb' 0 3))
    else .error .function
  | 0xD0 => withTyNoZ f Ty.float8 true (isK f.b && f.x.extractLsb' 0 4 != 0 && f.x.extractLsb' 5 14 == 0)
      (fun ty k => .plpack ty k (f.x.getLsbD 4) (f.x.extractLsb' 0 4) f.d f.a (f.b.extractLsb' 0 3) f.c)
  | 0xD1 => withFn f 2 (f.b == 0 && f.x.extractLsb' 0 4 != 0 && f.x.extractLsb' 4 15 == 0)
      (fun m => .plunpk m (f.x.extractLsb' 0 4) f.d f.a f.c)
  | 0xD2 => fn0 f (mbz (f.k == 0 && isM f.d && f.x.extractLsb' 0 4 != 0 && f.x.extractLsb' 4 4 != 0
      && f.x.extractLsb' 9 10 == 0)
      (.mma (f.x.extractLsb' 0 4) (f.x.extractLsb' 4 4) (f.x.getLsbD 8) (f.d.extractLsb' 0 2) f.a f.b f.c))
  | 0xD3 => fn0 f (mbz (f.a == 0 && f.b == 0 && f.c == 0 && f.k == 0 && f.x == 0 && isM f.d) (.mzero (f.d.extractLsb' 0 2)))
  | 0xD4 => fn0 f (mbz (f.c == 0 && f.k == 0 && isM f.d) (.mld (f.d.extractLsb' 0 2) f.a f.b f.x))
  | 0xD5 => fn0 f (mbz (f.c == 0 && f.k == 0 && isM f.d) (.mst (f.d.extractLsb' 0 2) f.a f.b f.x))
  | _ => .error .opcode

/-- The instruction an E-class operation is. -/
noncomputable def EOp.instr : EOp → Instr
  | .vaddFp ty m rms d a b => .vaddFp ty m rms d a b
  | .vsubFp ty m rms d a b => .vsubFp ty m rms d a b
  | .vmulFp ty m rms d a b => .vmulFp ty m rms d a b
  | .vdiv ty m rms d a b => .vdiv ty m rms d a b
  | .vsqrt ty m rms d a => .vsqrt ty m rms d a
  | .vfma ty m rms d a b => .vfma ty m rms d a b
  | .vfnma ty m rms d a b => .vfnma ty m rms d a b
  | .vminFp ty m rms d a b => .vminFp ty m rms d a b
  | .vmaxFp ty m rms d a b => .vmaxFp ty m rms d a b
  | .vcmpFp pr ty m d a b => .vcmpFp pr ty m d a b
  | .vsgn ty m d a b => .vsgn ty m d a b
  | .vsgnn ty m d a b => .vsgnn ty m d a b
  | .vsgnx ty m d a b => .vsgnx ty m d a b
  | .vscl inv ty m d a b => .vscl inv ty m d a b
  | .vaddInt ty m d a b => .vaddInt ty m d a b
  | .vsubInt ty m d a b => .vsubInt ty m d a b
  | .vaddSat ty m d a b => .vaddSat ty m d a b
  | .vsubSat ty m d a b => .vsubSat ty m d a b
  | .vmulInt ty m d a b => .vmulInt ty m d a b
  | .vmulh ty m d a b => .vmulh ty m d a b
  | .vmadd ty m d a b => .vmadd ty m d a b
  | .vminInt ty m d a b => .vminInt ty m d a b
  | .vmaxInt ty m d a b => .vmaxInt ty m d a b
  | .vcmpInt pr ty m d a b => .vcmpInt pr ty m d a b
  | .vsll ty m d a b => .vsll ty m d a b
  | .vsrl ty m d a b => .vsrl ty m d a b
  | .vsra ty m d a b => .vsra ty m d a b
  | .vid ty m d => .vid ty m d
  | .vand m d a b => .vand m d a b
  | .vor m d a b => .vor m d a b
  | .vxor m d a b => .vxor m d a b
  | .vmv m d a => .vmv m d a
  | .kand d a b => .kand d a b
  | .kor d a b => .kor d a b
  | .kxor d a b => .kxor d a b
  | .kandn d a b => .kandn d a b
  | .knot d a => .knot d a
  | .kset d => .kset d
  | .vbcast ty m d a => .vbcast ty m d a
  | .vmvx ty d a b => .vmvx ty d a b
  | .vcvt m rms part dst src d a => .vcvt m rms part dst src d a
  | .vsegmax ty k d a => .vsegmax ty k d a
  | .vsalsel pat ty m d a b => .vsalsel pat ty m d a b
  | .vrngN32 m d a b => .vrngN32 m d a b
  | .vld ty m d a off => .vld ty m d a off
  | .vst ty k fl d a off => .vst ty k fl d a off
  | .vlds ty m d a b off => .vlds ty m d a b off
  | .vsts ty k fl d a b off => .vsts ty k fl d a b off
  | .vldx ty m d a b sh off => .vldx ty m d a b sh off
  | .vstx ty k fl d a b sh off => .vstx ty k fl d a b sh off
  | .vgath ty m d a b sh re => .vgath ty m d a b sh re
  | .vscat ty k d a b sh re => .vscat ty k d a b sh re
  | .vscadd ty k d a b sh re => .vscadd ty k d a b sh re
  | .sopen n a off => .sopen n a off
  | .sadv n a => .sadv n a
  | .stend d n => .stend d n
  | .sclose n => .sclose n
  | .fopen n a off => .fopen n a off
  | .fadv n => .fadv n
  | .ftend d n => .ftend d n
  | .fclose n => .fclose n
  | .vgamRd d a => .vgamRd d a
  | .vgamWr d a => .vgamWr d a
  | .vred op ty k d a b => .vred op ty k d a b
  | .vscan op ex ty m d a b => .vscan op ex ty m d a b
  | .vperm m d a b => .vperm m d a b
  | .vslideUp m d a b => .vslideUp m d a b
  | .vslideDn m d a b => .vslideDn m d a b
  | .vcompress k d a => .vcompress k d a
  | .kpopc d a => .kpopc d a
  | .kfirst d a => .kfirst d a
  | .plpack ty k fl p d a b c => .plpack ty k fl p d a b c
  | .plunpk m p d a c => .plunpk m p d a c
  | .mma pa pb ser d a b c => .mma pa pb ser d a b c
  | .mzero d => .mzero d
  | .mld d a b off => .mld d a b off
  | .mst d a b off => .mst d a b off

/-- An S-form word (02 R32, R39). -/
noncomputable def decodeS (f : SFields) : Except Reject Instr :=
  if 0x80 ≤ f.op.toNat ∧ f.op.toNat < 0xE0 then
    match decodeSE f with
    | .ok e => .ok e.instr
    | .error r => .error r
  else decodeSA f

/-- An L-form word: only the OP and FN pairs that have an L-form (02 R33). -/
def decodeL (f : LFields) : Except Reject Instr :=
  match f.op.toNat, f.fn.toNat with
  | 0x02, 0x00 => .ok (.addImmLong f.d f.a f.i)
  | 0x02, 0x02 => .ok (.andImmLong f.d f.a f.i)
  | 0x02, 0x03 => .ok (.orImmLong f.d f.a f.i)
  | 0x02, 0x04 => .ok (.xorImmLong f.d f.a f.i)
  | 0x06, 0x00 => mbz (f.a == 0) (.liLong f.d f.i)
  | 0x06, 0x01 => mbz (f.a == 0) (.lih f.d f.i)
  | 0x06, 0x02 => mbz (f.a == 0) (.lpcLong f.d f.i)
  | 0x40, 0x00 => .ok (.ldI8Long f.d f.a f.i)
  | 0x40, 0x01 => .ok (.ldN8Long f.d f.a f.i)
  | 0x40, 0x02 => .ok (.ldI16Long f.d f.a f.i)
  | 0x40, 0x03 => .ok (.ldN16Long f.d f.a f.i)
  | 0x40, 0x04 => .ok (.ldI32Long f.d f.a f.i)
  | 0x40, 0x05 => .ok (.ldN32Long f.d f.a f.i)
  | 0x40, 0x06 => .ok (.ldI64Long f.d f.a f.i)
  | 0x41, 0x00 => .ok (.st8Long f.d f.a f.i)
  | 0x41, 0x01 => .ok (.st16Long f.d f.a f.i)
  | 0x41, 0x02 => .ok (.st32Long f.d f.a f.i)
  | 0x41, 0x03 => .ok (.st64Long f.d f.a f.i)
  | 0x51, 0x00 => mbz (f.a == 0) (.jalLong f.d f.i)
  | _, _ => .error .function

/-- Pair opcodes (02 R43). -/
def Pop.ofCode (b : BitVec 6) : Option Pop :=
  match b.toNat with
  | 0x01 => some .add
  | 0x02 => some .sub
  | 0x03 => some .and
  | 0x04 => some .or
  | 0x05 => some .xor
  | 0x06 => some .sll
  | 0x07 => some .srl
  | 0x08 => some .sra
  | 0x09 => some .mul
  | 0x0A => some .minI64
  | 0x0B => some .maxI64
  | 0x0C => some .minN64
  | 0x0D => some .maxN64
  | 0x0E => some .sltI64
  | 0x0F => some .sltN64
  | 0x10 => some .addImm
  | 0x11 => some .andImm
  | 0x12 => some .orImm
  | 0x13 => some .xorImm
  | 0x14 => some .sllImm
  | 0x15 => some .srlImm
  | 0x16 => some .sraImm
  | 0x17 => some .li
  | 0x18 => some .ldI64
  | 0x19 => some .ldI32
  | 0x1A => some .ldN32
  | 0x1B => some .st64
  | 0x1C => some .st32
  | 0x20 => some .faddF64
  | 0x21 => some .fsubF64
  | 0x22 => some .fmulF64
  | 0x23 => some .faddF32
  | 0x24 => some .fsubF32
  | 0x25 => some .fmulF32
  | 0x28 => some .vaddI32
  | 0x29 => some .vsubI32
  | 0x2A => some .vaddF32
  | 0x2B => some .vsubF32
  | 0x2C => some .vmulF32
  | 0x2D => some .vmaxF32
  | 0x2E => some .vminF32
  | 0x2F => some .vaddBf16
  | 0x30 => some .vmulBf16
  | 0x31 => some .vand
  | 0x32 => some .vor
  | 0x33 => some .vxor
  | 0x34 => some .vmv
  | 0x35 => some .vaddF32x
  | 0x36 => some .vmulF32x
  | 0x37 => some .vldF32
  | 0x38 => some .vstF32
  | _ => none

def Pop.code : Pop → BitVec 6
  | .add => 0x01
  | .sub => 0x02
  | .and => 0x03
  | .or => 0x04
  | .xor => 0x05
  | .sll => 0x06
  | .srl => 0x07
  | .sra => 0x08
  | .mul => 0x09
  | .minI64 => 0x0A
  | .maxI64 => 0x0B
  | .minN64 => 0x0C
  | .maxN64 => 0x0D
  | .sltI64 => 0x0E
  | .sltN64 => 0x0F
  | .addImm => 0x10
  | .andImm => 0x11
  | .orImm => 0x12
  | .xorImm => 0x13
  | .sllImm => 0x14
  | .srlImm => 0x15
  | .sraImm => 0x16
  | .li => 0x17
  | .ldI64 => 0x18
  | .ldI32 => 0x19
  | .ldN32 => 0x1A
  | .st64 => 0x1B
  | .st32 => 0x1C
  | .faddF64 => 0x20
  | .fsubF64 => 0x21
  | .fmulF64 => 0x22
  | .faddF32 => 0x23
  | .fsubF32 => 0x24
  | .fmulF32 => 0x25
  | .vaddI32 => 0x28
  | .vsubI32 => 0x29
  | .vaddF32 => 0x2A
  | .vsubF32 => 0x2B
  | .vmulF32 => 0x2C
  | .vmaxF32 => 0x2D
  | .vminF32 => 0x2E
  | .vaddBf16 => 0x2F
  | .vmulBf16 => 0x30
  | .vand => 0x31
  | .vor => 0x32
  | .vxor => 0x33
  | .vmv => 0x34
  | .vaddF32x => 0x35
  | .vmulF32x => 0x36
  | .vldF32 => 0x37
  | .vstF32 => 0x38

/-- The immediate forms of the pair table: Y is a 15-bit immediate. -/
def Pop.isImm : Pop → Bool
  | .addImm | .andImm | .orImm | .xorImm | .li | .ldI64 | .ldI32 | .ldN32 | .st64 | .st32 | .vldF32 | .vstF32 => true
  | _ => false

/-- The shift forms marked "sh" (02 R42). -/
def Pop.isShift : Pop → Bool
  | .sllImm | .srlImm | .sraImm => true
  | _ => false

/-- The column "Mem" of the pair table. -/
def Pop.isMem : Pop → Bool
  | .ldI64 | .ldI32 | .ldN32 | .st64 | .st32 | .vldF32 | .vstF32 => true
  | _ => false

/-- The column "Class": true for E. -/
def Pop.isE : Pop → Bool
  | .vaddI32 | .vsubI32 | .vaddF32 | .vsubF32 | .vmulF32 | .vmaxF32 | .vminF32 | .vaddBf16 | .vmulBf16 | .vand | .vor | .vxor
  | .vmv | .vaddF32x | .vmulF32x | .vldF32 | .vstF32 => true
  | _ => false

/-- Second source register of a "reg" form. -/
def Slot.b (s : Slot) : BitVec 5 := s.y.extractLsb' 10 5

/-- Row 5 of 02 R38 for a slot (R34, R42). -/
def Slot.ok (s : Slot) : Bool :=
  if s.pop == .vmv then s.y == 0
  else if s.pop == .li then s.a == 0
  else if s.pop.isImm then true
  else if s.pop.isShift then s.y.extractLsb' 6 9 == 0
  else s.y.extractLsb' 0 10 == 0

/-- Vector registers a slot names, as source or destination (02 R40 rule 5). -/
def Slot.vregs (s : Slot) : List VReg :=
  if !s.pop.isE then []
  else match s.pop with
    | .vldF32 | .vstF32 => [s.d]
    | .vmv | .vaddF32x | .vmulF32x => [s.d, s.a]
    | _ => [s.d, s.a, s.b]

/-- The x register a slot writes: x0 counts as none (02 R40 rule 4). -/
def Slot.xDest (s : Slot) : Option XReg :=
  if s.pop.isE || s.pop == .st64 || s.pop == .st32 || s.d == 0 then none else some s.d

/-- The rules of 02 R40 but the first. -/
def pairOk (s0 s1 : Slot) : Bool :=
  !(s0.pop.isE && !s1.pop.isE)
    && !(s0.pop.isMem && s1.pop.isMem)
    && (s0.xDest.isNone || s0.xDest != s1.xDest)
    && s0.vregs.all (fun r => s1.vregs.all (fun q => r.extractLsb' 0 2 != q.extractLsb' 0 2))

/-- One 31-bit slot (02 R34). -/
def slotOf (b : BitVec 31) : Option Slot :=
  (Pop.ofCode (b.extractLsb' 25 6)).map (fun p => ⟨p, b.extractLsb' 20 5, b.extractLsb' 15 5, b.extractLsb' 0 15⟩)

def Slot.bits (s : Slot) : BitVec 31 := s.pop.code ++ s.d ++ s.a ++ s.y

/-- The two slots of a P-form word: rows 4, 5 and 6 of 02 R38, in that order. -/
def decodeSlots (b0 b1 : BitVec 31) : Except Reject (Slot × Slot) :=
  match slotOf b0, slotOf b1 with
  | some s0, some s1 =>
    if !(s0.ok && s1.ok) then .error .mustBeZero
    else if pairOk s0 s1 then .ok (s0, s1) else .error .pairing
  | _, _ => .error .pairOpcode

/-- A P-form word. -/
noncomputable def decodeP (b0 b1 : BitVec 31) : Except Reject Instr :=
  match decodeSlots b0 b1 with
  | .ok (s0, s1) => .ok (.pairWord s0 s1)
  | .error r => .error r

/-- The instruction of a word, or why it is none (02 R38). -/
noncomputable def decode (w : Word) : Except Reject Instr :=
  match frameOf w with
  | .error r => .error r
  | .ok (.s f) => decodeS f
  | .ok (.l f) => decodeL f
  | .ok (.p s0 s1) => decodeP s0 s1

/-- What the machine runs for a fetched word: a word that is no instruction runs as ILLEGAL_WORD. -/
noncomputable def decodeFetched (w : Word) : Instr :=
  match decode w with
  | .ok i => i
  | .error _ => .illegalWord w

/-- The decoder on the eight bytes of a word, least significant first (02 R30). -/
noncomputable def decodeBytes (bs : List Byte) : Except Reject Instr :=
  decode (bs.foldr (fun b acc => (acc <<< 8) ||| b.setWidth 64) 0)

/-- The instruction an opcode-table word stands for: bits above nbits are zero. An instruction is one 64-bit word. -/
noncomputable def decodeTableWord (nbits w : Nat) : Option Instr :=
  match decode (BitVec.ofNat 64 (w % 2 ^ nbits)) with
  | .ok i => some i
  | .error _ => none

/-- An S-form frame from its fields. -/
def sf (op : BitVec 8) (fn : BitVec 6) (d : BitVec 5 := 0) (a : BitVec 5 := 0) (b : BitVec 5 := 0) (c : BitVec 5 := 0)
    (k : BitVec 3 := 0) (x : BitVec 19 := 0) : Option Frame := some (.s ⟨op, fn, d, a, b, c, k, x⟩)

/-- An L-form frame from its fields. -/
def lf (op : BitVec 8) (fn : BitVec 6) (d a : BitVec 5) (i : BitVec 32) : Option Frame := some (.l ⟨op, fn, d, a, i⟩)

/-- FN of a masked typed form: Z above TY. -/
def fnOf (z : Bool) (ty : Ty) : BitVec 6 := BitVec.ofBool z ++ ty.code

def zfn (z : Bool) (fn : BitVec 5) : BitVec 6 := BitVec.ofBool z ++ fn

/-- A 3-bit or 2-bit register number in a 5-bit field. -/
def k5 (r : BitVec 3) : BitVec 5 := 0#2 ++ r
def m5 (r : BitVec 2) : BitVec 5 := 0#3 ++ r
def s5 (n : BitVec 2) : BitVec 5 := 7#3 ++ n

/-- SB in X[18] over an RMS, predicate or selector in X[2:0]. -/
def sbx (b : VSrc) (lo : BitVec 3) : BitVec 19 := b.sb ++ 0#15 ++ lo

/-- The frame of an instruction; an operation or event of the table has none. -/
def encodeFrame : Instr → Option Frame
  | .add d a b => sf 0x01 0x00 d a b
  | .sub d a b => sf 0x01 0x01 d a b
  | .and d a b => sf 0x01 0x02 d a b
  | .or d a b => sf 0x01 0x03 d a b
  | .xor d a b => sf 0x01 0x04 d a b
  | .andn d a b => sf 0x01 0x05 d a b
  | .orn d a b => sf 0x01 0x06 d a b
  | .xnor d a b => sf 0x01 0x07 d a b
  | .sll d a b => sf 0x01 0x08 d a b
  | .srl d a b => sf 0x01 0x09 d a b
  | .sra d a b => sf 0x01 0x0A d a b
  | .rol d a b => sf 0x01 0x0B d a b
  | .ror d a b => sf 0x01 0x0C d a b
  | .minI64 d a b => sf 0x01 0x0D d a b
  | .maxI64 d a b => sf 0x01 0x0E d a b
  | .minN64 d a b => sf 0x01 0x0F d a b
  | .maxN64 d a b => sf 0x01 0x10 d a b
  | .sltI64 d a b => sf 0x01 0x11 d a b
  | .sltN64 d a b => sf 0x01 0x12 d a b
  | .seq d a b => sf 0x01 0x13 d a b
  | .add32 d a b => sf 0x01 0x14 d a b
  | .sub32 d a b => sf 0x01 0x15 d a b
  | .sll32 d a b => sf 0x01 0x16 d a b
  | .srl32 d a b => sf 0x01 0x17 d a b
  | .sra32 d a b => sf 0x01 0x18 d a b
  | .addImm d a imm => sf 0x02 0x00 d a (x := imm)
  | .andImm d a imm => sf 0x02 0x02 d a (x := imm)
  | .orImm d a imm => sf 0x02 0x03 d a (x := imm)
  | .xorImm d a imm => sf 0x02 0x04 d a (x := imm)
  | .sllImm d a sh => sf 0x02 0x08 d a (x := 0#13 ++ sh)
  | .srlImm d a sh => sf 0x02 0x09 d a (x := 0#13 ++ sh)
  | .sraImm d a sh => sf 0x02 0x0A d a (x := 0#13 ++ sh)
  | .rolImm d a sh => sf 0x02 0x0B d a (x := 0#13 ++ sh)
  | .rorImm d a sh => sf 0x02 0x0C d a (x := 0#13 ++ sh)
  | .minI64Imm d a imm => sf 0x02 0x0D d a (x := imm)
  | .maxI64Imm d a imm => sf 0x02 0x0E d a (x := imm)
  | .minN64Imm d a imm => sf 0x02 0x0F d a (x := imm)
  | .maxN64Imm d a imm => sf 0x02 0x10 d a (x := imm)
  | .sltI64Imm d a imm => sf 0x02 0x11 d a (x := imm)
  | .sltN64Imm d a imm => sf 0x02 0x12 d a (x := imm)
  | .seqImm d a imm => sf 0x02 0x13 d a (x := imm)
  | .add32Imm d a imm => sf 0x02 0x14 d a (x := imm)
  | .sll32Imm d a sh => sf 0x02 0x16 d a (x := 0#14 ++ sh)
  | .srl32Imm d a sh => sf 0x02 0x17 d a (x := 0#14 ++ sh)
  | .sra32Imm d a sh => sf 0x02 0x18 d a (x := 0#14 ++ sh)
  | .mul d a b => sf 0x03 0x00 d a b
  | .mulhI64 d a b => sf 0x03 0x01 d a b
  | .mulhN64 d a b => sf 0x03 0x02 d a b
  | .mul32 d a b => sf 0x03 0x03 d a b
  | .divI64 d a b => sf 0x03 0x04 d a b
  | .divN64 d a b => sf 0x03 0x05 d a b
  | .remI64 d a b => sf 0x03 0x06 d a b
  | .remN64 d a b => sf 0x03 0x07 d a b
  | .clz d a => sf 0x04 0x00 d a
  | .ctz d a => sf 0x04 0x01 d a
  | .popc d a => sf 0x04 0x02 d a
  | .rev8 d a => sf 0x04 0x03 d a
  | .brev d a => sf 0x04 0x04 d a
  | .sext8 d a => sf 0x04 0x05 d a
  | .sext16 d a => sf 0x04 0x06 d a
  | .sext32 d a => sf 0x04 0x07 d a
  | .zext8 d a => sf 0x04 0x08 d a
  | .zext16 d a => sf 0x04 0x09 d a
  | .zext32 d a => sf 0x04 0x0A d a
  | .sel d a b c => sf 0x05 0 d a b c
  | .madd d a b c => sf 0x05 1 d a b c
  | .li d imm => sf 0x06 0 d (x := imm)
  | .lpc d imm => sf 0x06 2 d (x := imm)
  | .addImmLong d a imm => lf 0x02 0 d a imm
  | .andImmLong d a imm => lf 0x02 2 d a imm
  | .orImmLong d a imm => lf 0x02 3 d a imm
  | .xorImmLong d a imm => lf 0x02 4 d a imm
  | .liLong d imm => lf 0x06 0 d 0 imm
  | .lih d imm => lf 0x06 1 d 0 imm
  | .lpcLong d imm => lf 0x06 2 d 0 imm
  | .faddF64 r d a b => sf 0x30 0 d a b (x := 0#16 ++ r.code)
  | .fsubF64 r d a b => sf 0x30 1 d a b (x := 0#16 ++ r.code)
  | .fmulF64 r d a b => sf 0x30 2 d a b (x := 0#16 ++ r.code)
  | .fdivF64 r d a b => sf 0x30 3 d a b (x := 0#16 ++ r.code)
  | .fsqrtF64 r d a => sf 0x30 4 d a (x := 0#16 ++ r.code)
  | .fmaF64 r d a b c => sf 0x30 5 d a b c (x := 0#16 ++ r.code)
  | .fminF64 d a b => sf 0x30 6 d a b
  | .fmaxF64 d a b => sf 0x30 7 d a b
  | .feqF64 d a b => sf 0x30 8 d a b
  | .fltF64 d a b => sf 0x30 9 d a b
  | .fleF64 d a b => sf 0x30 10 d a b
  | .fclassF64 d a => sf 0x30 11 d a
  | .fsgnF64 d a b => sf 0x30 12 d a b
  | .fsgnnF64 d a b => sf 0x30 13 d a b
  | .fsgnxF64 d a b => sf 0x30 14 d a b
  | .faddF32 r d a b => sf 0x31 0 d a b (x := 0#16 ++ r.code)
  | .fsubF32 r d a b => sf 0x31 1 d a b (x := 0#16 ++ r.code)
  | .fmulF32 r d a b => sf 0x31 2 d a b (x := 0#16 ++ r.code)
  | .fdivF32 r d a b => sf 0x31 3 d a b (x := 0#16 ++ r.code)
  | .fsqrtF32 r d a => sf 0x31 4 d a (x := 0#16 ++ r.code)
  | .fmaF32 r d a b c => sf 0x31 5 d a b c (x := 0#16 ++ r.code)
  | .fminF32 d a b => sf 0x31 6 d a b
  | .fmaxF32 d a b => sf 0x31 7 d a b
  | .feqF32 d a b => sf 0x31 8 d a b
  | .fltF32 d a b => sf 0x31 9 d a b
  | .fleF32 d a b => sf 0x31 10 d a b
  | .fclassF32 d a => sf 0x31 11 d a
  | .fsgnF32 d a b => sf 0x31 12 d a b
  | .fsgnnF32 d a b => sf 0x31 13 d a b
  | .fsgnxF32 d a b => sf 0x31 14 d a b
  | .fcvtF32F64 r d a => sf 0x32 0 d a (x := 0#16 ++ r.code)
  | .fcvtF64F32 r d a => sf 0x32 1 d a (x := 0#16 ++ r.code)
  | .fcvtF64I64 r d a => sf 0x32 2 d a (x := 0#16 ++ r.code)
  | .fcvtF64N64 r d a => sf 0x32 3 d a (x := 0#16 ++ r.code)
  | .fcvtF32I64 r d a => sf 0x32 4 d a (x := 0#16 ++ r.code)
  | .fcvtF32N64 r d a => sf 0x32 5 d a (x := 0#16 ++ r.code)
  | .fcvtI64F64 r d a => sf 0x32 6 d a (x := 0#16 ++ r.code)
  | .fcvtN64F64 r d a => sf 0x32 7 d a (x := 0#16 ++ r.code)
  | .fcvtI64F32 r d a => sf 0x32 8 d a (x := 0#16 ++ r.code)
  | .fcvtN64F32 r d a => sf 0x32 9 d a (x := 0#16 ++ r.code)
  | .ldI8 d a off => sf 0x40 0 d a (x := off)
  | .ldI8Long d a off => lf 0x40 0 d a off
  | .ldN8 d a off => sf 0x40 1 d a (x := off)
  | .ldN8Long d a off => lf 0x40 1 d a off
  | .ldI16 d a off => sf 0x40 2 d a (x := off)
  | .ldI16Long d a off => lf 0x40 2 d a off
  | .ldN16 d a off => sf 0x40 3 d a (x := off)
  | .ldN16Long d a off => lf 0x40 3 d a off
  | .ldI32 d a off => sf 0x40 4 d a (x := off)
  | .ldI32Long d a off => lf 0x40 4 d a off
  | .ldN32 d a off => sf 0x40 5 d a (x := off)
  | .ldN32Long d a off => lf 0x40 5 d a off
  | .ldI64 d a off => sf 0x40 6 d a (x := off)
  | .ldI64Long d a off => lf 0x40 6 d a off
  | .st8 d a off => sf 0x41 0 d a (x := off)
  | .st8Long d a off => lf 0x41 0 d a off
  | .st16 d a off => sf 0x41 1 d a (x := off)
  | .st16Long d a off => lf 0x41 1 d a off
  | .st32 d a off => sf 0x41 2 d a (x := off)
  | .st32Long d a off => lf 0x41 2 d a off
  | .st64 d a off => sf 0x41 3 d a (x := off)
  | .st64Long d a off => lf 0x41 3 d a off
  | .ldAcq sc d a off => sf 0x42 (0#3 ++ sc.code) d a (x := off)
  | .ldAcqN32 sc d a off => sf 0x42 (1#3 ++ sc.code) d a (x := off)
  | .stRel sc d a off => sf 0x43 (0#3 ++ sc.code) d a (x := off)
  | .stRel32 sc d a off => sf 0x43 (1#3 ++ sc.code) d a (x := off)
  | .amoSwap w d a b off => sf 0x44 (0#1 ++ BitVec.ofBool w ++ 0#4) d a b (x := off)
  | .amoAdd w d a b off => sf 0x44 (0#1 ++ BitVec.ofBool w ++ 1#4) d a b (x := off)
  | .amoAnd w d a b off => sf 0x44 (0#1 ++ BitVec.ofBool w ++ 2#4) d a b (x := off)
  | .amoOr w d a b off => sf 0x44 (0#1 ++ BitVec.ofBool w ++ 3#4) d a b (x := off)
  | .amoXor w d a b off => sf 0x44 (0#1 ++ BitVec.ofBool w ++ 4#4) d a b (x := off)
  | .amoMinI w d a b off => sf 0x44 (0#1 ++ BitVec.ofBool w ++ 5#4) d a b (x := off)
  | .amoMaxI w d a b off => sf 0x44 (0#1 ++ BitVec.ofBool w ++ 6#4) d a b (x := off)
  | .amoMinN w d a b off => sf 0x44 (0#1 ++ BitVec.ofBool w ++ 7#4) d a b (x := off)
  | .amoMaxN w d a b off => sf 0x44 (0#1 ++ BitVec.ofBool w ++ 8#4) d a b (x := off)
  | .cas64 d a b c off => sf 0x45 0 d a b c (x := off)
  | .cas32 d a b c off => sf 0x45 1 d a b c (x := off)
  | .prefd a off => sf 0x46 0 0 a (x := off)
  | .prefi a off => sf 0x46 1 0 a (x := off)
  | .beq a b disp => sf 0x50 0 0 a b (x := disp)
  | .bne a b disp => sf 0x50 1 0 a b (x := disp)
  | .bltI64 a b disp => sf 0x50 2 0 a b (x := disp)
  | .bgeI64 a b disp => sf 0x50 3 0 a b (x := disp)
  | .bltN64 a b disp => sf 0x50 4 0 a b (x := disp)
  | .bgeN64 a b disp => sf 0x50 5 0 a b (x := disp)
  | .jal d disp => sf 0x51 0 d (x := disp)
  | .jalLong d disp => lf 0x51 0 d 0 disp
  | .jalr d a off => sf 0x52 0 d a (x := off)
  | .setvlReg d a => sf 0x58 0 d a
  | .setvlImm d req => sf 0x58 1 d (x := req)
  | .setvlStream d a n => sf 0x58 2 d a (s5 n)
  | .settypeImm d req => sf 0x59 0 d (x := 0#12 ++ req)
  | .settypeReg d a => sf 0x59 1 d a
  | .setshapeReg d a b => sf 0x5A 0 d a b
  | .setshapeImm d rows cols => sf 0x5A 1 d (x := 0#7 ++ cols ++ rows)
  | .csrr d csr => sf 0x5B 0 d (x := 0#7 ++ csr)
  | .csrw csr a => sf 0x5B 1 0 a (x := 0#7 ++ csr)
  | .csrrw d csr a => sf 0x5B 2 d a (x := 0#7 ++ csr)
  | .csrs d csr a => sf 0x5B 3 d a (x := 0#7 ++ csr)
  | .csrc d csr a => sf 0x5B 4 d a (x := 0#7 ++ csr)
  | .drain q => sf 0x6E 0 (x := 0#16 ++ q)
  | .trap imm => sf 0x60 0 (x := 0#7 ++ imm)
  | .eret => sf 0x60 1
  | .vsave d a => sf 0x61 0 d a
  | .vrest a => sf 0x61 1 0 a
  | .launch d a off => sf 0x64 0 d a (x := off)
  | .welt d a off => sf 0x70 0 d a (x := off)
  | .join d a => sf 0x65 0 d a
  | .leave d => sf 0x65 1 d
  | .yield => sf 0x65 2
  | .yieldPark => sf 0x65 2 (x := 1)
  | .exit a => sf 0x65 3 0 a
  | .hprio lvl => sf 0x65 4 (x := 0#16 ++ lvl)
  | .hafn a => sf 0x65 5 0 a
  | .lend d a => sf 0x65 6 d a
  | .byinit d a b off => sf 0x66 0 d a b (x := off)
  | .byarrive d a n => sf 0x66 1 d a (x := 0#11 ++ n)
  | .bywait d a b c off => sf 0x66 2 d a b c (x := off)
  | .waitaddr d a b c off => sf 0x63 0 d a b c (x := off)
  | .waitaddr32 d a b c off => sf 0x63 1 d a b c (x := off)
  | .cewait d a c => sf 0x63 2 d a (c := c)
  | .lnempty a b off => sf 0x63 3 0 a b (x := off)
  | .fence sc uo p q => sf 0x62 (0#2 ++ BitVec.ofBool uo ++ sc.code) (x := 0#5 ++ q ++ p)
  | .fencePd uo d p q => sf 0x62 (0#2 ++ BitVec.ofBool uo ++ 6#3) d (x := 0#5 ++ q ++ p)
  | .bcnopen d a => sf 0x71 0 d a
  | .beacon d a b n off => sf 0x72 0 d a b (x := n ++ off)
  | .bcnclose d n => sf 0x73 0 d (x := 0#15 ++ n)
  | .cbkld a off => sf 0x77 0 0 a (x := off)
  | .vaddFp ty m r d a b => sf 0x80 (fnOf m.z ty) d a b.field (k := m.k) (x := sbx b r.code)
  | .vsubFp ty m r d a b => sf 0x81 (fnOf m.z ty) d a b.field (k := m.k) (x := sbx b r.code)
  | .vmulFp ty m r d a b => sf 0x82 (fnOf m.z ty) d a b.field (k := m.k) (x := sbx b r.code)
  | .vdiv ty m r d a b => sf 0x83 (fnOf m.z ty) d a b.field (k := m.k) (x := sbx b r.code)
  | .vsqrt ty m r d a => sf 0x84 (fnOf m.z ty) d a (k := m.k) (x := 0#16 ++ r.code)
  | .vfma ty m r d a b => sf 0x85 (fnOf m.z ty) d a b.field (k := m.k) (x := sbx b r.code)
  | .vfnma ty m r d a b => sf 0x86 (fnOf m.z ty) d a b.field (k := m.k) (x := sbx b r.code)
  | .vminFp ty m r d a b => sf 0x87 (fnOf m.z ty) d a b.field (k := m.k) (x := sbx b r.code)
  | .vmaxFp ty m r d a b => sf 0x88 (fnOf m.z ty) d a b.field (k := m.k) (x := sbx b r.code)
  | .vcmpFp p ty m d a b => sf 0x89 (fnOf m.z ty) (k5 d) a b.field (k := m.k) (x := sbx b p.code)
  | .vcmpInt p ty m d a b => sf 0x99 (fnOf m.z ty) (k5 d) a b.field (k := m.k) (x := sbx b p.code)
  | .vsgn ty m d a b => sf 0x8A (fnOf m.z ty) d a b.field (k := m.k) (x := sbx b 0)
  | .vsgnn ty m d a b => sf 0x8A (fnOf m.z ty) d a b.field (k := m.k) (x := sbx b 1)
  | .vsgnx ty m d a b => sf 0x8A (fnOf m.z ty) d a b.field (k := m.k) (x := sbx b 2)
  | .vscl inv ty m d a b => sf 0x8B (fnOf m.z ty) d a (k5 b) (k := m.k) (x := 0#18 ++ BitVec.ofBool inv)
  | .vaddInt ty m d a b => sf 0x90 (fnOf m.z ty) d a b.field (k := m.k) (x := sbx b 0)
  | .vsubInt ty m d a b => sf 0x91 (fnOf m.z ty) d a b.field (k := m.k) (x := sbx b 0)
  | .vaddSat ty m d a b => sf 0x92 (fnOf m.z ty) d a b.field (k := m.k) (x := sbx b 0)
  | .vsubSat ty m d a b => sf 0x93 (fnOf m.z ty) d a b.field (k := m.k) (x := sbx b 0)
  | .vmulInt ty m d a b => sf 0x94 (fnOf m.z ty) d a b.field (k := m.k) (x := sbx b 0)
  | .vmulh ty m d a b => sf 0x95 (fnOf m.z ty) d a b.field (k := m.k) (x := sbx b 0)
  | .vmadd ty m d a b => sf 0x96 (fnOf m.z ty) d a b.field (k := m.k) (x := sbx b 0)
  | .vminInt ty m d a b => sf 0x97 (fnOf m.z ty) d a b.field (k := m.k) (x := sbx b 0)
  | .vmaxInt ty m d a b => sf 0x98 (fnOf m.z ty) d a b.field (k := m.k) (x := sbx b 0)
  | .vsll ty m d a b => sf 0x9A (fnOf m.z ty) d a b.field (k := m.k) (x := sbx b 0)
  | .vsrl ty m d a b => sf 0x9B (fnOf m.z ty) d a b.field (k := m.k) (x := sbx b 0)
  | .vsra ty m d a b => sf 0x9C (fnOf m.z ty) d a b.field (k := m.k) (x := sbx b 0)
  | .vid ty m d => sf 0x9D (fnOf m.z ty) d (k := m.k)
  | .vand m d a b => sf 0xA0 (zfn m.z 0) d a b.field (k := m.k) (x := sbx b 0)
  | .vor m d a b => sf 0xA1 (zfn m.z 0) d a b.field (k := m.k) (x := sbx b 0)
  | .vxor m d a b => sf 0xA2 (zfn m.z 0) d a b.field (k := m.k) (x := sbx b 0)
  | .vmv m d a => sf 0xA3 (zfn m.z 0) d a (k := m.k)
  | .kand d a b => sf 0xA4 0 (k5 d) (k5 a) (k5 b)
  | .kor d a b => sf 0xA4 1 (k5 d) (k5 a) (k5 b)
  | .kxor d a b => sf 0xA4 2 (k5 d) (k5 a) (k5 b)
  | .kandn d a b => sf 0xA4 3 (k5 d) (k5 a) (k5 b)
  | .knot d a => sf 0xA4 4 (k5 d) (k5 a)
  | .kset d => sf 0xA4 5 (k5 d)
  | .vbcast ty m d a => sf 0xA5 (fnOf m.z ty) d a (k := m.k)
  | .vmvx ty d a b => sf 0xA6 (fnOf false ty) d a b
  | .vcvt m r part dst src d a => sf 0xA7 (zfn m.z 0) d a (k := m.k)
      (x := 0#2 ++ r.code ++ part ++ BitVec.ofBool src.nat ++ BitVec.ofBool dst.nat ++ src.fmt.code ++ dst.fmt.code)
  | .vsegmax ty k d a => sf 0xA8 (fnOf false ty) (k5 d) a (k := k)
  | .vsalsel p ty m d a b => sf 0xA9 (fnOf m.z ty) (k5 d) a b (k := m.k) (x := 0#17 ++ p.code)
  | .vrngN32 m d a b => sf 0xAA (zfn m.z 0x1B) d a b (k := m.k)
  | .vld ty m d a off => sf 0xB0 (fnOf m.z ty) d a (k := m.k) (x := off)
  | .vst ty k fl d a off => sf 0xB1 (fnOf false ty) d a (c := 0#4 ++ BitVec.ofBool fl) (k := k) (x := off)
  | .vlds ty m d a b off => sf 0xB2 (fnOf m.z ty) d a b (k := m.k) (x := off)
  | .vsts ty k fl d a b off => sf 0xB3 (fnOf false ty) d a b (0#4 ++ BitVec.ofBool fl) k off
  | .vldx ty m d a b sh off => sf 0xB4 (fnOf m.z ty) d a b (k := m.k) (x := sh ++ off)
  | .vstx ty k fl d a b sh off => sf 0xB5 (fnOf false ty) d a b (0#4 ++ BitVec.ofBool fl) k (sh ++ off)
  | .vgath ty m d a b sh re => sf 0xB6 (fnOf m.z ty) d a b (k := m.k) (x := 0#2 ++ sh ++ re)
  | .vscat ty k d a b sh re => sf 0xB7 (fnOf false ty) d a b (k := k) (x := 0#2 ++ sh ++ re)
  | .vscadd ty k d a b sh re => sf 0xB8 (fnOf false ty) d a b (k := k) (x := 0#2 ++ sh ++ re)
  | .sopen n a off => sf 0xB9 0 (s5 n) a (x := off)
  | .sadv n a => sf 0xB9 1 (s5 n) a
  | .stend d n => sf 0xB9 2 d (s5 n)
  | .sclose n => sf 0xB9 3 (s5 n)
  | .fopen n a off => sf 0xBA 0 (s5 n) a (x := off)
  | .fadv n => sf 0xBA 1 (s5 n)
  | .ftend d n => sf 0xBA 2 d (s5 n)
  | .fclose n => sf 0xBA 3 (s5 n)
  | .vgamRd d a => sf 0xBB 0 d a
  | .vgamWr d a => sf 0xBB 1 d a
  | .vred op ty k d a b => sf 0xC0 (fnOf false ty) d a b (k := k) (x := 0#16 ++ op.code)
  | .vscan op ex ty m d a b => sf 0xC1 (fnOf m.z ty) d a b (k := m.k) (x := 0#15 ++ BitVec.ofBool ex ++ op.code)
  | .vperm m d a b => sf 0xC2 (zfn m.z 0) d a b (k := m.k)
  | .vslideUp m d a b => sf 0xC3 (zfn m.z 0) d a b (k := m.k)
  | .vslideDn m d a b => sf 0xC3 (zfn m.z 0) d a b (k := m.k) (x := 1)
  | .vcompress k d a => sf 0xC4 0 d a (k := k)
  | .kpopc d a => sf 0xC5 0 d (k5 a)
  | .kfirst d a => sf 0xC5 1 d (k5 a)
  | .plpack ty k fl p d a b c => sf 0xD0 (fnOf false ty) d a (k5 b) c k (0#14 ++ BitVec.ofBool fl ++ p)
  | .plunpk m p d a c => sf 0xD1 (zfn m.z 2) d a (c := c) (k := m.k) (x := 0#15 ++ p)
  | .mma pa pb ser d a b c => sf 0xD2 0 (m5 d) a b c (x := 0#10 ++ BitVec.ofBool ser ++ pb ++ pa)
  | .mzero d => sf 0xD3 0 (m5 d)
  | .mld d a b off => sf 0xD4 0 (m5 d) a b (x := off)
  | .mst d a b off => sf 0xD5 0 (m5 d) a b (x := off)
  | .rred op ty a b off => sf 0xE0 (ty.code ++ op.code) 0 a b (x := off)
  | .rwset d n a b => sf 0xE1 0 d a b (x := 0#15 ++ n)
  | .fmap a b => sf 0xE2 0 0 a b
  | .pairWord s0 s1 => some (.p s0.bits s1.bits)
  | .illegalWord _ | .instructionFetchFill _ _ | .dataL1Fill _ _ | .pageWalk _ _ | .broadcast _ | .laneGroupExecute _ _
  | .loadGroupLand _ _ _ | .emptyLineFilledWake _ | .storeRelease _ | .storePerform _ _ | .valueArrive _ | .laneDeliver _ _
  | .rendezvousDone _ | .matrixEngineStart _ | .mmaRow _ | .matrixComplete _ | .streamPrefetch _ _ _ | .trapEntry _
  | .admitThread _ | .placeThread _ | .scratchpadCarry _ | .sliceEnd _ | .gangWaitSliceExpiry _ | .agingInterval _
  | .waitEvent _ | .waitDeadline _ | .launchComplete _ | .cegoRead _ | .copyStart _ | .copyLineLand _ _ _ | .copyComplete _ _
  | .copyFault _ _ | .gangDelivery _ _ _ | .weltBlockStart _ | .weltMergeRow _ | .weltCompressRow _ | .weltComplete _
  | .weltFault _ | .awlRowFetch _ _ | .gRelease _ | .scatterAddPerform _ | .flashFrame _ | .flashchrWrite _ | .lbudgetWrite _
  | .slackWrite _ | .fcsrAccess _ _ _ | .vstartAccess _ _ _ | .sensorSample _ _ _ | .energyUpdate _ _ | .powerControl _ _ _ _
  | .thermalEmergency _ | .slackInterval | .lanternTrip _ | .scrub _ _ | .correctedError _ | .uncorrectableError _ _ _
  | .energyRead64 _ | .energyReadLow _ | .energyReadHigh _ | .errorCounterRead _ _ | .errlogRead _ | .lanternRecordRead _
  | .plimWrite _ | .hostRegisterWrite _ _ | .debugHalt _ _ | .debugStep _ _ | .cedbgPause _ _ | .dbggo | .dstart | .inval
  | .fwstage | .fwact | .attest | .quiesce | .resume | .mailboxReset | .unknownCommand _ | .coldReset | .warmReset
  | .foghorn _ | .hostMemAccess _ _ _ | .hostSnoop _ _ | .flitReceive _ _ _ _ _ _ | .nakReceive _ _ | .linkTrained _
  | .datagramReceive _ _ _ _ | .remoteWritePerform _ | .remoteLoadRequest _ | .remoteLoadReply _ | .remoteLoadTimeout _
  | .beaconOpenRequest _ | .beaconOpenReply _ | .beaconOpenTimeout _ | .beaconFlagArrive _ | .beaconFlagShort _
  | .beaconFlagReport _ | .flagOutstandingExpiry _ | .beaconCloseRequest _ | .beaconCloseReply _ | .beaconCloseTimeout _
  | .sweepMarkerArrive _ | .sweepMarkerShort _ | .sweepEcho _ | .sweepTimeout _ | .reductionArrive _ | .beaconCloseBto _
  | .linkOutOfService _ _ => none

/-- The word of an instruction. -/
def encode (i : Instr) : Option Word := (encodeFrame i).map Frame.word

/-- The eight bytes of an instruction, least significant first (02 R30). -/
def encodeBytes (i : Instr) : Option (List Byte) :=
  (encode i).map (fun w => (List.range 8).map (fun n => w.extractLsb' (8 * n) 8))

end Sys2Proof
end

