-- ==== Sys2Proof/Machine/Bits.lean ====
section
/-!
DEFINITION. Bit, byte and list helpers over the types of Sys2Proof/Word.lean (00 R4: little-endian).
-/
namespace Sys2Proof.Machine

/-- The natural a little-endian byte list stands for. -/
def leNat : List Byte → Nat
  | [] => 0
  | b :: r => b.toNat + 256 * leNat r

/-- The n low bytes of a natural, least significant first. -/
def leBytes : Nat → Nat → List Byte
  | 0, _ => []
  | n + 1, v => BitVec.ofNat 8 v :: leBytes n (v / 256)

/-- Bits [31:0] sign-extended to 64 bits: sext32 of 03 R57. -/
def sext32 (w : Word) : Word := (w.setWidth 32).signExtend 64

/-- The low n bits of a word, sign-extended. -/
def sextLow (n : Nat) (w : Word) : Word := (w.setWidth n).signExtend 64

/-- The low n bits of a word, zero-extended. -/
def zextLow (n : Nat) (w : Word) : Word := (w.setWidth n).setWidth 64

/-- Number of one bits among the low n bits. -/
def popCount (w : Nat) : Nat → Nat
  | 0 => 0
  | n + 1 => (if w.testBit n then 1 else 0) + popCount w n

/-- Number of zero bits above the highest one of the low n bits. -/
def leadingZeros (w : Nat) : Nat → Nat
  | 0 => 0
  | n + 1 => if w.testBit n then 0 else 1 + leadingZeros w n

/-- Number of zero bits from bit i upwards before the first one, over n bits. -/
def trailingZeros (w i : Nat) : Nat → Nat
  | 0 => 0
  | n + 1 => if w.testBit i then 0 else 1 + trailingZeros w (i + 1) n

/-- The low n bits in reverse order. -/
def reverseBits (w : Nat) : Nat → Nat
  | 0 => 0
  | n + 1 => (if w.testBit 0 then 2 ^ n else 0) + reverseBits (w / 2) n

/-- Numbers of the set bits of an 8-bit mask, ascending. -/
def bitsOf (m : BitVec 8) : List Nat := (List.range 8).filter (fun i => m.getLsbD i)

/-- Insert into a rising list of naturals. -/
def natInsert (a : Nat) : List Nat → List Nat
  | [] => [a]
  | b :: r => if a < b then a :: b :: r else if a = b then b :: r else b :: natInsert a r

/-- Remove from a list of naturals. -/
def natErase (a : Nat) (l : List Nat) : List Nat := l.filter (fun b => b != a)

def natInsertAll (as l : List Nat) : List Nat := as.foldl (fun acc a => natInsert a acc) l
def natEraseAll (as l : List Nat) : List Nat := l.filter (fun b => !as.contains b)

/-- The different values of a list, rising. -/
def distinct (l : List Nat) : List Nat := natInsertAll l []

/-- Replace the element at an index. -/
def setAt {α : Type} (l : List α) (i : Nat) (a : α) : List α := l.set i a

/-- Remove the element at an index. -/
def dropAt {α : Type} (l : List α) (i : Nat) : List α := l.take i ++ l.drop (i + 1)

end Sys2Proof.Machine
end

