-- ==== Sys2Proof/Machine/State.lean ====
section
/-!
DEFINITION. The state of one SCV9-1536 package, as plain data, and the state after reset. One thread is in focus (`me`); the
others stand in `others`. Everything else belongs to the package.
-/
namespace Sys2Proof.Machine

/-- Reasons a step stops with a fault. -/
inductive Fault where
  /-- Raised by step when the package has no power (19 R340) and the agenda holds no cold reset. Safe: nothing runs. -/
  | unpowered
  deriving DecidableEq, Repr

/-- Reasons a step refuses. -/
inductive Refusal where
  /-- Raised by an arm of exec whose instruction has no meaning yet. Safe: nothing is claimed of it. -/
  | notModelled (mnemonic : String)
  deriving DecidableEq, Repr

/-- Privilege levels a thread context runs at (01 R15). -/
inductive Priv where
  | job | sup
  deriving DecidableEq, Repr

/-- Thread states (01 R23). -/
inductive Status where
  | created | ready | running | waiting | parked | retired
  deriving DecidableEq, Repr

/-- A vector register: 32 element groups (4L in use), tag, dirty mark, extent, arrival map, poison mark of each aligned 8-byte
word (01 R12, 04 R106, 06 R130, 19 R344). -/
structure VFile where
  groups : Vector Group 32
  tag : BitVec 4
  dirty : Bool
  wx : Nat
  gam : BitVec 32
  poison : BitVec 128
  deriving DecidableEq, Repr

/-- A mask register (06 R123). -/
structure KFile where
  bits : BitVec 16384
  dirty : Bool
  poison : BitVec 256
  deriving DecidableEq, Repr

/-- A tile register: 32 rows of 32 FP32 values (10 R225). -/
structure MFile where
  rows : Vector (BitVec 1024) 32
  tag : BitVec 4
  dirty : Bool
  poison : BitVec 512
  deriving DecidableEq, Repr

/-- A scale register: 256 E8 scales (07 R158). -/
structure EFile where
  bits : BitVec 2048
  dirty : Bool
  poison : BitVec 32
  deriving DecidableEq, Repr

/-- VTYPE (06 R119). -/
structure VType where
  vill : Bool
  mp : Bool
  tp : Bool
  grp : BitVec 2
  wid : BitVec 3
  deriving DecidableEq, Repr

/-- FCSR flags NV, DZ, OF, UF, NX (01 R17). -/
structure Flags where
  nv : Bool
  dz : Bool
  of : Bool
  uf : Bool
  nx : Bool
  deriving DecidableEq, Repr

/-- A detected fault, before trap entry writes it (04 R97 to R99): cause code, SRC, DETAIL, EADDR, address of the instruction,
VSTART where the cause writes it, and ESTREAM. -/
structure Trap where
  code : BitVec 8
  src : BitVec 2
  detail : BitVec 12
  addr : Word
  pc : Word
  vstart : Option Nat
  stream : Word
  deriving DecidableEq, Repr

/-- One element of a released scatter-add (18 R326): home address, format, addend bits, and the rounding mode and flush mode that
stood at the instruction's position (07 R147). -/
structure AddItem where
  home : Nat
  fmt : Fmt
  bits : Nat
  rm : BitVec 2
  fz : Bool
  deriving DecidableEq, Repr

/-- What the elements of one element group of a store, push or scatter leave in a store buffer: bytes with their home addresses,
bytes for other packages with the package, and the additions of a scatter-add (06 R134, 18 R327, 21 R383). Each kind of page has an entry of
its own (11 R245 codes; 3 is a lane slice, R248); `bad` are buffered 8-byte words that an error has spoilt (19 R343). -/
structure StoreGroup where
  second : Bool
  group : Nat
  lane : Nat
  kind : BitVec 2
  near : List MaskedByte
  far : List (Nat × MaskedByte)
  adds : List AddItem
  fill : Bool
  bad : List Nat
  deriving DecidableEq, Repr

/-- A window entry (04 R94, R107): an E-class instruction that has not completed in every lane. `op2` is slot 1 of an E-and-E
pair; `slot1` marks the E slot of an A-then-E pair; `scal` are the captured scalars; `vstart` is its first element (or row) to
perform, and elements from `low` below `upto` are those of a faulted store group that stand but were discarded (04 R94); `queued`
says it has left `cmd`; `delivered` are the lanes of a rendezvous that delivered; `held` is its share of the store buffers; `ret`
the x register of a value it returns, `reserved` whether its entry of `val` is reserved (03 R91); `mq` says it stands in the matrix queue. `rm`
and `fz` are the rounding and flush mode at its position (07 R147); `tag0` and `tag1` the tags it gives its destinations (06 R124); `sel` the
mask as it stood when an entry that names a port began (09 R207); `parts` what vsegmax has contributed to blocks not yet written (08 R186:
element and bits), vgam.rd has sampled (09 R223: group and bit) and a gather has read and not yet landed (18 R327); `since` the TIME of the youngest load its
scalars depend on (11 R249). `replay` says that it is replayed after a trap or a park (04 R96); `idle` that it only moves the read ports it names, its VSTART
being VL or more (09 R207). -/
structure Entry where
  word : Word
  pc : Word
  slot1 : Bool
  op : EOp
  op2 : Option EOp
  scal : List Word
  vl : Nat
  vtype : VType
  shape : Word
  vstart : Nat
  low : Nat
  upto : Nat
  map0 : BitVec 256
  map1 : BitVec 256
  desc : BitVec 512
  queued : Bool
  delivered : BitVec 8
  held : List StoreGroup
  ret : Option XReg
  reserved : Bool
  mq : Bool
  rm : BitVec 2
  fz : Bool
  tag0 : BitVec 4
  tag1 : BitVec 4
  sel : Option (BitVec 16384)
  parts : List (Nat × Nat)
  since : Nat
  replay : Bool
  idle : Bool
  deriving DecidableEq, Repr

/-- A reserved entry of the value queue whose value is on its way (01 R21, 03 R91). -/
structure Value where
  dest : XReg
  value : Word
  deriving DecidableEq, Repr

/-- Kinds of wait (01 R24): a word of 8 or 4 bytes, a copy, a buoy phase. -/
inductive WaitKind where
  | word | half | copy | buoy
  deriving DecidableEq, Repr

/-- A wait in progress (01 R25, 14 R269, R270, 15 R299): what is tested (home address with its virtual address, or copy identifier),
the compared value, the status register, the deadline, and the status once the event occurred or the deadline passed while the thread
was parked or halted: 0 or 1, or 2 where the word could not be read and the wait will trap. -/
structure Wait where
  kind : WaitKind
  target : Nat
  ea : Word
  value : Word
  dest : XReg
  deadline : Nat
  done : Option Word
  deriving DecidableEq, Repr

/-- What became of a remote load (21 R384): no reply yet, bytes with their poison, denied by the owner (R381), or lost. -/
inductive Reply where
  | none
  | data (l : List (Byte × Bool))
  | denied
  | lost
  deriving DecidableEq, Repr

/-- A remote load under way (21 R384): what was asked, when it was sent, and what became of it. -/
structure RemoteLoad where
  ser : Nat
  pkg : Nat
  addr : Nat
  size : Nat
  sent : Nat
  reply : Reply
  deriving DecidableEq, Repr

/-- Progress of a request to another package that an instruction waits for (21 R387, R392, R393): the channel and when the request
left; for a sweep when it began, the packages whose echo is awaited, and those that failed with their status. -/
inductive Ask where
  | none
  | openChan (chan : Nat) (sent : Nat)
  | closeChan (chan : Nat) (sent : Nat)
  | sweeping (sent : Nat) (left : List Nat) (bad : List (Nat × Nat))
  | answered (status : Word)
  deriving DecidableEq, Repr

/-- A stream or fibre engine (09 R202 to R215): descriptor, state bits, position (for a fibre the current row less ROW0), the
positions PE and PO of a fibre, its row bounds (start of ROW0, start and length of the current row), and the elements read ahead
of the pop by position (R209). -/
structure Stream where
  desc : BitVec 512
  opened : Bool
  fib : Bool
  odd : Bool
  ended : Bool
  pos : Nat
  pe : Nat
  po : Nat
  rows : List Nat
  ahead : List (Nat × List Byte)
  deriving DecidableEq, Repr

/-- What a thread that stands between the slots of a pair word does once it has left them (02 R46): it goes on, is parked (15 R302), or retires
with its launch (15 R293). -/
inductive Due where
  | none | park | retire
  deriving DecidableEq, Repr

/-- A thread (01). `owed` are the registers of values that vsave's window entries return, pending until the entries are placed again
and return them (01 R21, 04 R101, R106), each with whether its entry of `val` is reserved (03 R91); `before` is the register that slot 0 of a pair word at
an address wrote, with its value before the word, once slot 1 has trapped (02 R41, R44); `cbk` the codebook that a cbkld carries, and whether it stands in the
lane queues (08 R192); `carry` is the core whose scratchpad lines still have to be carried over (13 R262); `dep` the TIME of
the youngest load each x register depends on, and `need` that of the registers of the word that issues (11 R249); `exiting` is the status of an exit
that has been reached and still waits (01 R26); `imgBad` says that the header or an entry of its saved image is poisoned (19 R344). -/
structure Thread where
  tid : Nat
  status : Status
  lid : Nat
  idx : Nat
  cluster : Nat
  core : Nat
  ctx : Nat
  lmask : BitVec 8
  grantReq : Nat
  gangL : Nat
  priv : Priv
  pc : Word
  x : Vector Word 32
  v : Vector VFile 32
  k : Vector KFile 8
  m : Vector MFile 4
  e : Vector EFile 8
  codebook : Vector (BitVec 32) 16
  fz : Bool
  rm : BitVec 2
  flags : Flags
  vl : Nat
  vtype : VType
  vstart : Word
  rows : BitVec 6
  cols : BitVec 6
  crew : BitVec 16
  ce : Vector Word 8
  epc : Word
  ecause : Word
  einfo : Word
  eaddr : Word
  eslot : BitVec 2
  estream : Word
  bto : Word
  fto : Word
  tvec : Word
  psup : Bool
  tip : Bool
  streams : Vector Stream 4
  win : List Entry
  held : Bool
  st : List (List StoreGroup)
  gq : List (List StoreGroup)
  vals : List Value
  owed : List (XReg × Bool)
  wait : Option Wait
  root : Nat
  fault : Option Trap
  remote : List RemoteLoad
  ask : Ask
  sweep : List (Nat × Nat)
  ep : Nat
  level : Nat
  launchLevel : Nat
  wantLevel : Option Nat
  hafn : Option Nat
  levelSince : Nat
  placedAt : Nat
  passed : Nat
  lastCore : Option Nat
  wasPlaced : Bool
  carry : Option Nat
  iw : Word
  only1 : Bool
  dep : Vector Nat 32
  need : Nat
  exiting : Option (BitVec 8)
  imgBad : Bool
  due : Due
  before : Option (Word × XReg × Word)
  cbk : Option (BitVec 512 × Bool)
  deriving DecidableEq, Repr

/-- A cached page-table entry (18 R317): the cache that holds it (Machine/Translate.lean), its address space, first virtual address, size, the
entry: a leaf, or in a walker cache a pointer. -/
structure TlbLeaf where
  owner : Nat
  root : Nat
  base : Nat
  size : Nat
  entry : Word
  deriving DecidableEq, Repr

/-- A line a cache of a core holds (05 R113, 06 R140): core, line number (home address / 128), bytes, TIME of its fill. -/
structure CacheLine where
  core : Nat
  line : Nat
  data : List Byte
  since : Nat
  deriving DecidableEq, Repr

/-- A live accumulator of a reduction-window element (21 R396): address, size in bytes, the exact sum in units of 2^-160, and the
marks for NaN and the infinities. -/
structure Sum where
  addr : Nat
  size : Nat
  total : Int
  nan : Bool
  pinf : Bool
  ninf : Bool
  deriving DecidableEq, Repr

/-- Memory of the package and the marks on it. Home addresses: HBM and the host window at their local physical addresses
(20 R350); on-chip SRAM above 2^44 (Machine/Mem.lean). `poison` and `empties` are rising lists of 8-byte words and 128-byte
lines by number; `hostLines` the 64-byte lines of the host window that the router's cache holds, the one used last at the end, with whether they are
owned (20 R354). -/
structure Mem where
  bytes : List Host.Cell
  poison : List Nat
  empties : List Nat
  owners : List (Nat × Nat)
  hostLines : List (Nat × Bool)
  tlb : List TlbLeaf
  l1 : List CacheLine
  icache : List CacheLine
  sums : List Sum
  deriving DecidableEq, Repr

/-- A launch (15 R289 to R295): its block, launcher's address space, and what its record will hold. -/
structure Launch where
  lid : Nat
  block : BitVec 512
  root : Nat
  live : Bool
  started : Nat
  retired : Nat
  faults : Nat
  fcode : BitVec 8
  fsrc : BitVec 8
  ftid : Nat
  faddr : Word
  endCode : Nat
  xcode : BitVec 8
  tstart : Option Nat
  tend : Nat
  recorded : Bool
  deriving DecidableEq, Repr

/-- A crew record (15 R283). `gang` holds a gang's cluster and lane count. -/
structure Crew where
  num : BitVec 16
  members : Nat
  gang : Option (Nat × Nat)
  live : Nat
  deriving DecidableEq, Repr

/-- A core that differs from its default: fenced, fenced lanes, DBGCTL.HALT and CX, whether a STEP is still to issue its word, the
threads whose oldest entries stand in the matrix queue, the first being performed where `engine`, and the launches of which a thread has been placed on it (04 R111, 10 R230, 15 R292, 19 R346). -/
structure CoreRec where
  core : Nat
  fenced : Bool
  badLanes : BitVec 8
  halt : Bool
  cx : BitVec 2
  stepping : Bool
  mq : List Nat
  engine : Bool
  seen : List Nat
  deriving DecidableEq, Repr

/-- A copy that a CEGO read started (14 R271 to R276): its number in the cluster, whose low 16 bits are its identifier; starting thread with its launch, address space, privilege, FTO and
the core its window addresses resolve against, the shadows, the gang and its members still to be served, whether the engine has taken it,
the destination lines (virtual address / 128) that have landed, remote loads under way, the gang data once fetched, with the
poison of each byte, the members that were parked then, and the fault word of a copy that has stopped and still owes its completion words (R275). -/
structure Copy where
  id : Nat
  tid : Nat
  lid : Nat
  root : Nat
  priv : Priv
  core : Nat
  fto : Nat
  src : Word
  dst : Word
  len : Nat
  sstr : BitVec 32
  dstr : BitVec 32
  rows : Nat
  gang : Bool
  crew : BitVec 16
  gtag : BitVec 4
  greg : VReg
  flag : Word
  fval : Word
  members : List Nat
  running : Bool
  landed : List Nat
  remote : List RemoteLoad
  data : Option (List (Byte × Bool))
  parked : List Nat
  failed : Option Word
  deriving DecidableEq, Repr

/-- A block in the queue of a Welt unit (14 R277 to R281): starting thread as for a copy, the block, its headers once read, the
number of rows whose counts are written, and the scratchpad lines it has written that are not full yet. -/
structure WeltBlock where
  tid : Nat
  lid : Nat
  root : Nat
  priv : Priv
  core : Nat
  block : BitVec 512
  started : Bool
  headA : BitVec 256
  headB : BitVec 256
  rowsDone : Nat
  lines : List Nat
  deriving DecidableEq, Repr

/-- The cores a gang waits for (15 R303): launch, cores, when it first headed its level. -/
structure GangSet where
  lid : Nat
  cores : List Nat
  since : Nat
  deriving DecidableEq, Repr

/-- A cluster (14 R264: `deadSram` are its cores whose contribution is out of service; R272, R277, 15 R300, R303, 19 R330, R331, R335). `thermal` is the count of ones that power and heat allow in
FLASHCAP, `nextCopy` counts the copies started, `pause` is CEDBG.PAUSE. -/
structure Cluster where
  id : Nat
  enabled : Bool
  deadSram : List Nat
  flashchr : BitVec 16
  flashapp : BitVec 16
  flashcap : BitVec 16
  lbudget : Nat
  lbcap : Nat
  aging : Nat
  slice : Nat
  thermal : Nat
  copies : List Copy
  nextCopy : Nat
  welts : List WeltBlock
  pause : Bool
  gangSets : List GangSet
  deriving DecidableEq, Repr

/-- A chiplet: the HBM channels (by physical index), L2 slices and scratchpad banks that are out of service (18 R309, R310, 20 R348). -/
structure Chiplet where
  deadChannels : List Nat
  deadSlices : List Nat
  deadBanks : List Nat
  deriving DecidableEq, Repr

/-- Channels, slices and banks in service; contributions of a cluster in service (14 R264). -/
def Chiplet.channels (c : Chiplet) : Nat := 128 - c.deadChannels.length
def Chiplet.slices (c : Chiplet) : Nat := 384 - c.deadSlices.length
def Chiplet.banks (c : Chiplet) : Nat := 64 - c.deadBanks.length
def Cluster.contrib (c : Cluster) : Nat := 16 - c.deadSram.length

/-- A scale-up link (21 R376, R377): counters and state of LNKSTAT, the next sequence number sent, the replay ring (newest
first, each flit with its source and destination), the next sequence number expected, the NAK returned last. -/
structure Link where
  naks : BitVec 16
  rtrn : BitVec 16
  lossy : Bool
  state : BitVec 2
  insvc : Bool
  nextSeq : BitVec 16
  ring : List (BitVec 16 × Nat × Nat × Packet)
  expect : BitVec 16
  nak : Option (BitVec 16)
  deriving DecidableEq, Repr

/-- A scale-out port (21 R377). -/
structure Port where
  drop : BitVec 32
  up : Bool
  deriving DecidableEq, Repr

/-- An entry of the sender table (21 R386): channel identifier, thread, channel number of the thread, destination, SENT, whether
the open was answered, the outstanding flags with the times they were sent (R388), when its close was sent (R392), and whether its thread has gone, so that the close
follows by itself (15 R287, R293). -/
structure Sender where
  chan : Nat
  tid : Nat
  slot : Nat
  pkg : Nat
  sent : BitVec 32
  opened : Bool
  flags : List (BitVec 32 × Nat)
  closing : Option Nat
  gone : Bool
  deriving DecidableEq, Repr

/-- A flag held at the receiver (21 R390): its fields and its time of arrival. -/
structure HeldFlag where
  addr : Nat
  val : Word
  count : BitVec 32
  bto : Nat
  arrived : Nat
  deriving DecidableEq, Repr

/-- An entry of the receiver table (21 R386, R390, R392): source package, channel, ARR, held flags, a close that waits. -/
structure Receiver where
  src : Nat
  chan : Nat
  arr : BitVec 32
  flags : List HeldFlag
  close : Option (BitVec 32 × Nat × Nat)
  deriving DecidableEq, Repr

/-- Counted packets of one sweep of a remote thread performed here (21 R393). -/
structure SweepCount where
  src : Nat
  tid : Nat
  ep : Nat
  count : Nat
  deriving DecidableEq, Repr

/-- A sweep marker that waits at this package (21 R393). -/
structure Marker where
  src : Nat
  tid : Nat
  ep : Nat
  count : Nat
  bto : Nat
  arrived : Nat
  deriving DecidableEq, Repr

/-- A reduction window (21 R394). -/
structure RWindow where
  base : Nat
  size : Nat
  ty : RTy
  en : Bool
  deriving DecidableEq, Repr

/-- A datagram that left on a scale-out port (21 R380): port, source and destination IPv6 address, UDP port of both ends, packet. -/
structure Datagram where
  port : Nat
  src : BitVec 128
  dst : BitVec 128
  udp : Nat
  packet : Packet
  deriving DecidableEq, Repr

/-- The router, links, channel tables and reduction windows (21). `inbox` holds packets delivered and not yet performed, with
their source; `outbox` records the packets that have left, with source and destination, `datagrams` those that left by scale-out; `freed` the identifiers that may not be
reused before a time; `nextEp` numbers the sweeps of threads; `fenced` are the scale-up links that a reset has fenced (19 R346). -/
structure Fabric where
  routes : List (Nat × Word)
  prefixes : Word
  podcfg : Word
  links : Vector Link 32
  ports : Vector Port 10
  rdrop : BitVec 32
  senders : List Sender
  nextChan : Nat
  freed : List (Nat × Nat)
  receivers : List Receiver
  counts : List SweepCount
  markers : List Marker
  inbox : List (Nat × Packet)
  outbox : List (Nat × Nat × Packet)
  datagrams : List Datagram
  windows : Vector RWindow 16
  nextSer : Nat
  nextEp : Nat
  fenced : BitVec 32
  deriving DecidableEq, Repr

/-- Error counters and ERRLOG of a die (19 R337, R343): compute layers 0 to 7, SRAM dies 8 to 11. -/
structure Errors where
  ce : BitVec 32
  uep : BitVec 32
  uenc : BitVec 32
  rfet : BitVec 32
  cons : BitVec 32
  log : Word
  deriving DecidableEq, Repr

/-- Power, heat and errors (19 R335 to R347): completed samples by die and sensor, PLIM, the slack governor (count, dwell in
milliseconds, SLACK values of the interval), energy accumulators of the layers and of the package with their latches, rail
voltages, error counters, uncorrectable errors of each unit, FENCE records, LNTSTAT and LNTFIRST, the start of the 10 ms window and the package energy then (R335). -/
structure Power where
  sensors : List (Nat × Nat × BitVec 16)
  plim : Nat
  govn : Nat
  dwell : Nat
  slackSum : Int
  slackCount : Nat
  energy : Vector Word 9
  latch : Vector (BitVec 32) 9
  volt : Vector (BitVec 16) 8
  errors : Vector Errors 12
  units : List (Nat × Nat)
  fences : List (Nat × Nat)
  lntstat : Word
  lntfirst : BitVec 7
  winStart : Nat
  winEnergy : Word
  deriving DecidableEq, Repr

/-- A record that firmware appended to the capability table (20 R361, R362): TYPE, value, the FVER its signature covers, and whether the Bamlen
product key signs it, or the device identity key. -/
structure CapRecord where
  type : Nat
  value : List Byte
  fver : Word
  product : Bool
  deriving DecidableEq, Repr

/-- The host's side (20 R355 to R373): mailbox registers and payload, quiesced state, firmware build, epoch, least build and staged
chunks, the number of boots, the records appended to the capability table since, the FVER in its header, debug unlock, nonces drawn, token buffer, FOGSTAT, the count of
signature failures, whether the key store is erased, the seed it holds and the identity private key that the boot derived from it (R368); the bytes the last read of the host or of firmware returned; whether the boot has
reached step 9 (R367), whether it stopped at step 2 or 3, and whether the last CXL.mem request got the "memory not active" response (R353). -/
structure HostSide where
  cmd : BitVec 8
  res : BitVec 32
  code : BitVec 6
  done : Bool
  busy : Bool
  args : Vector Word 5
  len : BitVec 16
  payload : List Host.Cell
  quiesced : Bool
  build : BitVec 32
  epoch : BitVec 32
  minBuild : Nat
  staged : List (Nat × List Byte)
  boots : Nat
  capTail : List CapRecord
  capFver : Word
  unlocked : Bool
  nonces : Nat
  token : List Host.Cell
  fogstat : BitVec 5
  sigfail : BitVec 2
  keyErased : Bool
  seed : List Byte
  signKey : List Byte
  lastRead : List Byte
  active : Bool
  stopped : Bool
  memOff : Bool
  deriving DecidableEq, Repr

/-- Which side moves next when the agenda is empty (log 1). -/
inductive Turn where
  | issue | engine | rotate
  deriving DecidableEq, Repr

/-- The package. -/
structure State where
  me : Thread
  others : List Thread
  mem : Mem
  time : Nat
  pkgnum : BitVec 12
  slack : Word
  nextTid : Nat
  nextLid : Nat
  launches : List Launch
  crews : List Crew
  cores : List CoreRec
  clusters : List Cluster
  chiplets : Vector Chiplet 4
  fab : Fabric
  power : Power
  host : HostSide
  powered : Bool
  agenda : List Instr
  turn : Turn
  lag : Bool
  pace : Nat
  fresh : Nat
  deriving DecidableEq, Repr

/-- A vector register at creation (01 R14). -/
def VFile.clean : VFile := ⟨Vector.replicate 32 0, 0, false, 0, BitVec.allOnes 32, 0⟩
def KFile.clean : KFile := ⟨0, false, 0⟩
def MFile.clean : MFile := ⟨Vector.replicate 32 0, 0, false, 0⟩
def EFile.clean : EFile := ⟨0, false, 0⟩
def VType.ill : VType := ⟨true, false, false, 0, 0⟩
def Flags.none : Flags := ⟨false, false, false, false, false⟩
def Stream.closed : Stream := ⟨0, false, false, false, false, 0, 0, 0, [], []⟩

/-- A thread at creation (01 R14, R16), but for what its launch gives it. -/
def Thread.fresh (tid : Nat) : Thread where
  tid := tid
  status := .created
  lid := 0
  idx := 0
  cluster := 0
  core := 0
  ctx := 0
  lmask := 0xFF
  grantReq := 8
  gangL := 0
  priv := .job
  pc := 0
  x := Vector.replicate 32 0
  v := Vector.replicate 32 VFile.clean
  k := Vector.replicate 8 KFile.clean
  m := Vector.replicate 4 MFile.clean
  e := Vector.replicate 8 EFile.clean
  codebook := Vector.replicate 16 0
  fz := false
  rm := 0
  flags := Flags.none
  vl := 0
  vtype := VType.ill
  vstart := 0
  rows := 0
  cols := 0
  crew := 0
  ce := Vector.replicate 8 0
  epc := 0
  ecause := 0
  einfo := 0
  eaddr := 0
  eslot := 0
  estream := 0
  bto := 0x3567E0
  fto := 0x8583B0
  tvec := 0
  psup := false
  tip := false
  streams := Vector.replicate 4 Stream.closed
  win := []
  held := false
  st := []
  gq := []
  vals := []
  owed := []
  wait := none
  root := 0
  fault := none
  remote := []
  ask := .none
  sweep := []
  ep := 0
  level := 0
  launchLevel := 0
  wantLevel := none
  hafn := none
  levelSince := 0
  placedAt := 0
  passed := 0
  lastCore := none
  wasPlaced := false
  carry := none
  iw := 0
  only1 := false
  dep := Vector.replicate 32 0
  need := 0
  exiting := none
  imgBad := false
  due := .none
  before := none
  cbk := none

/-- Aging interval and time slice as shipped, in cycles (15 R300). -/
def shippedAging : Nat := 1750000
def shippedSlice : Nat := 1750000

/-- A cluster at reset on a fully enabled part (01 R16, 14 R264, 15 R300, 19 R330, R331). -/
def Cluster.atReset (id : Nat) : Cluster :=
  ⟨id, true, [], 0xFFFF, 0xFFFF, 0xFFFF, 512, 512, shippedAging, shippedSlice, 16, [], 0, [], false, []⟩

/-- The fabric at reset (21 R377, R378, R386, R394). -/
def Fabric.atReset : Fabric where
  routes := []
  prefixes := 0
  podcfg := 0
  links := Vector.replicate 32 ⟨0, 0, false, 0, false, 0, [], 0, none⟩
  ports := Vector.replicate 10 ⟨0, false⟩
  rdrop := 0
  senders := []
  nextChan := 0
  freed := []
  receivers := []
  counts := []
  markers := []
  inbox := []
  outbox := []
  datagrams := []
  windows := Vector.replicate 16 ⟨0, 0, .i32, false⟩
  nextSer := 0
  nextEp := 1
  fenced := 0

/-- Power, heat and errors at reset (19 R335 to R343). -/
def Power.atReset : Power where
  sensors := []
  plim := 3200
  govn := 16
  dwell := 8
  slackSum := 0
  slackCount := 0
  energy := Vector.replicate 9 0
  latch := Vector.replicate 9 0
  volt := Vector.replicate 8 0
  errors := Vector.replicate 12 ⟨0, 0, 0, 0, 0, 0⟩
  units := []
  fences := []
  lntstat := 0
  lntfirst := 0
  winStart := 0
  winEnergy := 0

/-- The LANTERN record of a boot (20 R362). -/
def lanternRecord (stat : Word) (first : BitVec 7) (fver : Word) : CapRecord :=
  ⟨8, leBytes 8 stat.toNat ++ leBytes 8 first.toNat, fver, false⟩

/-- The 96-byte seed written at manufacture, and the identity private key derived from it (20 R368). Log 11. -/
def factorySeed : List Byte := (List.range 96).map Config.seedByte
def privateKey (seed : List Byte) : List Byte := (List.range 128).map (Config.keyGenPrivate seed)

/-- The host's side at reset (20 R356, R363, R371): boot has appended its LANTERN record to the capability table. -/
def HostSide.atReset : HostSide where
  cmd := 0
  res := 0
  code := 0
  done := false
  busy := false
  args := Vector.replicate 5 0
  len := 0
  payload := []
  quiesced := false
  build := 0
  epoch := 0
  minBuild := 0
  staged := []
  boots := 0
  capTail := [lanternRecord 0 0 0]
  capFver := 0
  unlocked := false
  nonces := 0
  token := []
  fogstat := 0
  sigfail := 0
  keyErased := false
  seed := factorySeed
  signKey := privateKey factorySeed
  lastRead := []
  active := true
  stopped := false
  memOff := false

/-- The package right after reset, fully enabled: no thread exists (the thread in focus is a retired placeholder, log 2). -/
def State.reset : State where
  me := { Thread.fresh 0 with status := .retired }
  others := []
  mem := ⟨[], [], [], [], [], [], [], [], []⟩
  time := 0
  pkgnum := 0
  slack := 0
  nextTid := 0
  nextLid := 0
  launches := []
  crews := []
  cores := []
  clusters := (List.range 96).map Cluster.atReset
  chiplets := Vector.replicate 4 ⟨[], [], []⟩
  fab := Fabric.atReset
  power := Power.atReset
  host := HostSide.atReset
  powered := true
  agenda := []
  turn := .issue
  lag := false
  pace := 1
  fresh := 0

end Sys2Proof.Machine
end

