-- ==== Sys2Proof/Machine/Flags.lean ====
section
/-!
DEFINITION. The flags of FCSR (01 R17): joining them, their bits, and FCSR itself. The computations that raise them stand in
Machine/Float.lean.
-/
namespace Sys2Proof.Machine

/-- Flags raised together (01 R17: they are sticky). -/
def Flags.or (a b : Flags) : Flags := ⟨a.nv || b.nv, a.dz || b.dz, a.of || b.of, a.uf || b.uf, a.nx || b.nx⟩

def Flags.bits (f : Flags) : BitVec 5 :=
  BitVec.ofBool f.nv ++ BitVec.ofBool f.dz ++ BitVec.ofBool f.of ++ BitVec.ofBool f.uf ++ BitVec.ofBool f.nx

def Flags.ofBits (b : BitVec 5) : Flags := ⟨b.getLsbD 4, b.getLsbD 3, b.getLsbD 2, b.getLsbD 1, b.getLsbD 0⟩

/-- FCSR (01 R17). -/
def Thread.fcsr (t : Thread) : Word := (BitVec.ofBool t.fz ++ t.rm ++ t.flags.bits).setWidth 64

def State.raiseFlags (s : State) (f : Flags) : State := { s with me := { s.me with flags := s.me.flags.or f } }

/-- No flag, and one flag or a pair of flags alone (03 R66, 07 R147). -/
def flagNv : Flags := { Flags.none with nv := true }
def flagDz : Flags := { Flags.none with dz := true }
def flagNx : Flags := { Flags.none with nx := true }
def flagOv : Flags := { Flags.none with of := true, nx := true }
def flagUx : Flags := { Flags.none with uf := true, nx := true }

end Sys2Proof.Machine
end

