-- ==== Sys2Proof/Machine/Clock.lean ====
section
/-!
DEFINITION. TIME and what it carries with it (19 R329 to R335, R342): flash frames of 16 cycles, the intervals of 2 ms of the slack governor, the
windows of 10 ms of power control.
-/
namespace Sys2Proof.Machine

/-- 19 R331. -/
def normPattern (p : BitVec 16) : BitVec 16 := if popCount p.toNat 16 < 4 then 0xFFFF else p
def appliedPattern (pat cap : BitVec 16) : BitVec 16 :=
  let p := normPattern pat &&& normPattern cap
  if popCount p.toNat 16 < 4 then normPattern cap else p

/-- The spread pattern with n ones (19 R332). -/
def spread (n : Nat) : BitVec 16 := (List.range n).foldl (fun m j => m ||| BitVec.twoPow 16 (16 * j / n)) 0

/-- Cycles of an interval of the slack governor (19 R342), and of a power window (R335), at 1.75 GHz. -/
def slackCycles : Nat := 3500000
def windowCycles : Nat := 17500000

/-- FLASHCAP holds the pattern with the lower of the governor's count and the thermal and power count (19 R342). -/
def State.setCaps (s : State) : State :=
  { s with clusters := s.clusters.map (fun c => { c with flashcap := spread (min s.power.govn c.thermal) }) }

/-- The governor's update (19 R342) of count and dwell, from the sum and number of the SLACK values of an interval. -/
def governor (g dwell : Nat) (sum : Int) (n : Nat) : Nat × Nat :=
  if n = 0 then (g, dwell + 2)
  else if 8 ≤ dwell ∧ 200 * (n : Int) < sum ∧ 4 < g then (g - 1, 2)
  else if 8 ≤ dwell ∧ sum < -200 * (n : Int) ∧ g < 16 then (g + 1, 2)
  else (g, dwell + 2)

/-- Intervals of the slack governor end (19 R342): the first took the SLACK writes; none fell in the `later` others. -/
def State.slackOver (s : State) (later : Nat) : State :=
  let p := s.power
  let r := governor p.govn p.dwell p.slackSum p.slackCount
  ({ s with power := { p with govn := r.1, dwell := r.2 + 2 * later, slackSum := 0, slackCount := 0 } }).setCaps

/-- A frame begins: the patterns in force are applied (19 R331). -/
def State.framed (s : State) : State :=
  { s with clusters := s.clusters.map (fun c => { c with flashapp := appliedPattern c.flashchr c.flashcap }) }

/-- How many boundaries of a period lie after one time and not after another. -/
def crossed (period a b : Nat) : Nat := b / period - a / period

/-- TIME comes to `now`, never back. What began or ended on the way is done: the last frame began, with the caps that the governor wrote at the end of the
first interval where that frame began after it (no later interval changes them); a power window began, with the energy counted then. -/
def State.tick (s : State) (now : Nat) : State :=
  let frame (s' : State) : State := if crossed 16 s.time now = 0 then s' else s'.framed
  let slack (s' : State) : State :=
    if crossed slackCycles s.time now = 0 then s' else s'.slackOver (crossed slackCycles s.time now - 1)
  let s1 := if now / 16 * 16 ≤ (s.time / slackCycles + 1) * slackCycles then slack (frame s) else frame (slack s)
  let s2 := if crossed windowCycles s.time now = 0 then s1
    else { s1 with power := { s1.power with winStart := now / windowCycles * windowCycles, winEnergy := s1.power.energy[8] } }
  { s2 with time := max s.time now }

end Sys2Proof.Machine
end

