-- ==== Sys2Proof/Machine/Mem.lean ====
section
/-!
DEFINITION. Memory of the package by home address, in canonical form, and the marks on it: poison (19 R344), full/empty bits
(14 R265), the last writing thread of a scratchpad line (12 R262), and the data L1 lines (06 R140).
-/
namespace Sys2Proof.Machine

/-- Home addresses of on-chip SRAM start here, above every local physical address. -/
def sramBase : Nat := 2 ^ 44
/-- Core scratchpad, 1 MiB each; cluster memory, 8 MiB each; chiplet scratchpad, 128 MiB each; lane slices, 64 KiB each. -/
def coreSram (core : Nat) : Nat := sramBase + core * 2 ^ 20
def clusterSram (cl : Nat) : Nat := sramBase + 2 ^ 32 + cl * 2 ^ 23
def chipSram (chip : Nat) : Nat := sramBase + 2 ^ 33 + chip * 2 ^ 27
def laneSram (core lane : Nat) : Nat := sramBase + 2 ^ 34 + (core * 8 + lane) * 2 ^ 16
def endSram : Nat := sramBase + 2 ^ 35

/-- Scratchpad lines carry full/empty bits: core, cluster and chiplet, not lane slices (14 R265). -/
def isScratch (a : Nat) : Bool := decide (sramBase ≤ a ∧ a < sramBase + 2 ^ 34)

/-- What an address that no entry lists reads as: zero (20 R367 step 6, 14 R265). -/
def unlisted : Byte := 0

/-- The byte at an address of a rising cell list. -/
def cellGet : List Host.Cell → Nat → Byte
  | [], _ => unlisted
  | (b, v) :: r, a => if b = a then v else if a < b then unlisted else cellGet r a

/-- Write one byte, keeping the canonical form. -/
def cellSet : List Host.Cell → Nat → Byte → List Host.Cell
  | [], a, v => if v = unlisted then [] else [(a, v)]
  | (b, w) :: r, a, v =>
    if a < b then (if v = unlisted then (b, w) :: r else (a, v) :: (b, w) :: r)
    else if a = b then (if v = unlisted then r else (a, v) :: r)
    else (b, w) :: cellSet r a v

/-- Every entry lies above `lo`, entries rise, none holds the unlisted value. -/
def cellsAbove : Nat → List Host.Cell → Bool
  | _, [] => true
  | lo, (b, v) :: r => decide (lo ≤ b) && v != unlisted && cellsAbove (b + 1) r

/-- The canonical form of memory. -/
def Mem.wf (m : Mem) : Bool := cellsAbove 0 m.bytes

/-- One byte at a home address. -/
def Mem.byte (m : Mem) (a : Nat) : Byte := cellGet m.bytes a

/-- n bytes from a home address. -/
def Mem.bytesAt (m : Mem) (a n : Nat) : List Byte := (List.range n).map (fun i => m.byte (a + i))

/-- The little-endian number of n bytes. -/
def Mem.number (m : Mem) (a n : Nat) : Nat := leNat (m.bytesAt a n)

/-- The bits a masked byte leaves in a byte. -/
def mergeByte (b : MaskedByte) (old : Byte) : Byte := (old &&& ~~~b.mask) ||| (b.data &&& b.mask)

/-- Write masked bytes, in list order (11 R244). -/
def cellsWrite (l : List Host.Cell) (bs : List MaskedByte) : List Host.Cell :=
  bs.foldl (fun acc b => cellSet acc b.addr (mergeByte b (cellGet acc b.addr))) l

/-- Whole bytes from an address. -/
def wholeBytes (a : Nat) (bs : List Byte) : List MaskedByte :=
  (List.range bs.length).map (fun i => ⟨a + i, bs.getD i 0, 0xFF⟩)

/-- 8-byte words that a list of masked bytes covers whole (19 R344). -/
def coveredWords (bs : List MaskedByte) : List Nat :=
  (distinct (bs.map (fun b => b.addr / 8))).filter
    (fun w => (List.range 8).all (fun i => bs.any (fun b => b.addr == 8 * w + i && b.mask == 0xFF)))

/-- Lines of scratchpad that a list of masked bytes touches. -/
def touchedLines (bs : List MaskedByte) : List Nat :=
  (distinct (bs.map (fun b => b.addr / 128))).filter (fun l => isScratch (128 * l))

/-- The data L1 copy of a line is updated by a store of its core (06 R140). -/
def CacheLine.update (c : CacheLine) (core : Nat) (bs : List MaskedByte) : CacheLine :=
  if c.core = core then
    { c with data := bs.foldl (fun d b =>
        if b.addr / 128 = c.line then d.set (b.addr % 128) (mergeByte b (d.getD (b.addr % 128) 0)) else d) c.data }
  else c

/-- Record thread `who` as last writer of scratchpad lines (12 R262). -/
def setOwners (who : Nat) (lines : List Nat) (l : List (Nat × Nat)) : List (Nat × Nat) :=
  l.filter (fun p => !lines.contains p.1) ++ lines.map (fun n => (n, who))

/-- A write to a byte of a reduction-window element drops its accumulator (21 R396). -/
def dropSums (bs : List MaskedByte) (l : List Sum) : List Sum :=
  l.filter (fun e => !bs.any (fun b => decide (e.addr ≤ b.addr ∧ b.addr < e.addr + e.size)))

/-- A device access to a byte of the host window uses its line in the router's host-line cache of 8192 lines (20 R354): a write or an atomic owns it, a read
takes a shared copy. The line used least recently leaves; its bytes stand at their homes here, so nothing is to be written back. -/
def Mem.holdHost (m : Mem) (own : Bool) (home : Nat) : Mem :=
  if 2 ^ 43 ≤ home ∧ home < 2 ^ 44 then
    let l := m.hostLines.filter (fun p => p.1 != home / 64) ++ [(home / 64, own || m.hostLines.contains (home / 64, true))]
    { m with hostLines := l.drop (l.length - 8192) }
  else m

/-- Perform a write at its home: bytes, poison cleared where whole words are covered, last writer, accumulators dropped, and the
data L1 of the core that performs it where there is one. A write of a thread to the host window owns its lines. -/
def Mem.perform (m : Mem) (who : Option Nat) (core : Option Nat) (bs : List MaskedByte) : Mem :=
  { (if who.isSome then bs.foldl (fun m b => m.holdHost true b.addr) m else m) with
    bytes := cellsWrite m.bytes bs
    poison := natEraseAll (coveredWords bs) m.poison
    owners := match who with
      | some t => setOwners t (touchedLines bs) m.owners
      | none => m.owners
    sums := dropSums bs m.sums
    l1 := match core with
      | some c => m.l1.map (fun l => l.update c bs)
      | none => m.l1 }

/-- Lines 128 bytes long that a span of bytes touches. -/
def spanLines (a n : Nat) : List Nat :=
  if n = 0 then [] else (List.range ((a + n - 1) / 128 - a / 128 + 1)).map (fun i => a / 128 + i)

/-- Whether a span lies in a scratchpad line that is empty (14 R266). -/
def Mem.isEmptyAt (m : Mem) (a n : Nat) : Bool := (spanLines a n).any (fun l => m.empties.contains l)

/-- The lowest poisoned 8-byte word of a span. -/
def Mem.poisonAt (m : Mem) (a n : Nat) : Option Nat :=
  m.poison.find? (fun w => decide (a / 8 ≤ w ∧ w ≤ (a + n - 1) / 8 ∧ n ≠ 0))

/-- Set lines full or empty (14 R265). -/
def Mem.setFull (m : Mem) (lines : List Nat) : Mem := { m with empties := natEraseAll lines m.empties }
def Mem.setEmpty (m : Mem) (lines : List Nat) : Mem := { m with empties := natInsertAll lines m.empties }

/-- Poison words (19 R343). -/
def Mem.setPoison (m : Mem) (words : List Nat) : Mem := { m with poison := natInsertAll words m.poison }

/-- Drop every line of a core's data L1 (03 R76), or of every core's copy of some lines (03 R79). -/
def Mem.dropL1 (m : Mem) (core : Nat) : Mem := { m with l1 := m.l1.filter (fun c => c.core != core) }
def Mem.dropLines (m : Mem) (lines : List Nat) : Mem := { m with l1 := m.l1.filter (fun c => !lines.contains c.line) }

/-- A byte as a core reads it: from its data L1 where the line is there and the access may use it (06 R140, 11 R259): a load that depends on
an earlier one takes no line filled before that one was performed (11 R249). `reader` is the core and the TIME of the load depended on. -/
def Mem.seenByte (m : Mem) (reader : Option (Nat × Nat)) (a : Nat) : Byte :=
  match reader with
  | none => m.byte a
  | some (c, since) =>
    match m.l1.find? (fun l => l.core == c && l.line == a / 128 && decide (since ≤ l.since)) with
    | some l => l.data.getD (a % 128) 0
    | none => m.byte a

def Mem.seenBytes (m : Mem) (reader : Option (Nat × Nat)) (a n : Nat) : List Byte :=
  (List.range n).map (fun i => m.seenByte reader (a + i))

/-- A request of a core for a line of one of its caches (05 R113, 06 R140): a line it holds becomes the one used most recently; any other
is filled from memory, and the line of a full set that was used least recently makes room. A line older than `since` is filled again. Log 8. -/
def fillLine (sets ways core home since now : Nat) (m : Mem) (l : List CacheLine) : List CacheLine :=
  let own (c : CacheLine) : Bool := c.core == core && c.line == home / 128
  let l := l.filter (fun c => !(own c && decide (c.since < since)))
  let mates := l.filter (fun c => c.core == core && c.line % sets == home / 128 % sets)
  if mates.any own then l.filter (fun c => !own c) ++ l.filter own
  else
    let l' := match mates with
      | old :: _ => if ways ≤ mates.length then l.erase old else l
      | [] => l
    l' ++ [⟨core, home / 128, m.bytesAt (128 * (home / 128)) 128, now⟩]

/-- A load of a core through its data L1 leaves the line there, used most recently (06 R140): 8 banks of 32 sets of 4 ways. -/
def Mem.loadLine (m : Mem) (core since now home : Nat) : Mem := { m with l1 := fillLine 256 4 core home since now m m.l1 }

/-- A read of the S path that does not go through the data L1 drops the core's copy of its line, so that no later read of the core goes
backwards (03 R74, 11 R243). -/
def Mem.dropOwn (m : Mem) (core home : Nat) : Mem := { m with l1 := m.l1.filter (fun c => !(c.core == core && c.line == home / 128)) }

end Sys2Proof.Machine
end

