-- ==== Sys2Proof/Machine/Translate.lean ====
section
/-!
DEFINITION. Translation of virtual addresses (18 R311 to R316, 20 R349 to R351): windows, page-table walks, permissions, holes.
-/
namespace Sys2Proof.Machine

/-- Kinds of access, by the permissions they need (18 R315). -/
inductive Acc where
  | load | store | atomic | fetch
  deriving DecidableEq, Repr

/-- Who translates: the core and granted lanes for the windows, the address space, the privilege. -/
structure Env where
  core : Nat
  lmask : BitVec 8
  root : Nat
  priv : Priv
  deriving DecidableEq, Repr

/-- Where an access goes: a home in this package, an offset of the capability table, or another package. -/
inductive Place where
  | near (home : Nat)
  | cap (off : Nat)
  | far (pkg addr : Nat)
  deriving DecidableEq, Repr

/-- A translated address: its place, its page kind where it has one, and whether the data L1 may hold it. -/
structure Xlat where
  place : Place
  kind : Option (BitVec 2)
  cached : Bool
  deriving DecidableEq, Repr

/-- A failed check: cause code and DETAIL (04 R98). -/
structure Bad where
  code : BitVec 8
  detail : BitVec 12
  deriving DecidableEq, Repr

/-- Contents of a local physical address (20 R349, R350). -/
inductive Spot where
  | hbm | cap | firmware | host | hole
  deriving DecidableEq, Repr

/-- Cause codes (04 R98). -/
def cIllegal : BitVec 8 := 0x01
def cPrivilege : BitVec 8 := 0x02
def cFetchAlign : BitVec 8 := 0x03
def cFetchPage : BitVec 8 := 0x04
def cFetchAccess : BitVec 8 := 0x05
def cMisaligned : BitVec 8 := 0x06
def cPage : BitVec 8 := 0x07
def cAccess : BitVec 8 := 0x08
def cPoison : BitVec 8 := 0x09
def cVtype : BitVec 8 := 0x0A
def cFormat : BitVec 8 := 0x0B
def cStream : BitVec 8 := 0x0C
def cMatrix : BitVec 8 := 0x0D
def cSoftware : BitVec 8 := 0x0E
def cPeerLost : BitVec 8 := 0x0F
def cDouble : BitVec 8 := 0x10
def cWindowHeld : BitVec 8 := 0x11
def cBadImage : BitVec 8 := 0x12
def cScaleRange : BitVec 8 := 0x13

/-- First address of the window region (18 R311). -/
def windowRegion : Nat := 0x000FFF0000000000
def winLane : Nat := 0x000FFF0000000000
def winCore : Nat := 0x000FFF1000000000
def winCluster : Nat := 0x000FFF2000000000
def winChip : Nat := 0x000FFF4000000000
def winCap : Nat := 0x000FFF8000000000

/-- HBM bytes in service of a chiplet (20 R348). -/
def State.chipBytes (s : State) (c : Fin 4) : Nat := s.chiplets[c].channels * 2 ^ 31

/-- CAPBASE: the base of the firmware region (20 R351). -/
def State.capBase (s : State) : Nat := s.chipBytes 0 - 2 ^ 28

/-- 20 R349 to R351. -/
def State.spot (s : State) (a : Nat) : Spot :=
  if h : a < 2 ^ 40 then
    have hc : a / 2 ^ 38 < 4 := by omega
    if a % 2 ^ 38 < s.chipBytes ⟨a / 2 ^ 38, hc⟩ then
      if a < 2 ^ 38 ∧ s.capBase ≤ a then (if a < s.capBase + 2 ^ 20 then .cap else .firmware) else .hbm
    else .hole
  else if 2 ^ 43 ≤ a ∧ a < 2 ^ 44 then .host
  else .hole

/-- Cluster and chiplet of a core (00 R2): 16 cores a cluster, 24 clusters a chiplet. -/
def clusterOf (core : Nat) : Nat := core / 16
def chipOf (core : Nat) : Nat := core / 384
def layerOf (core : Nat) : Nat := core / 192

/-- Number of contributions of a cluster in service (14 R264). -/
def State.contrib (s : State) (cl : Nat) : Nat :=
  match s.clusters.find? (fun c => c.id == cl) with
  | some c => c.contrib
  | none => 0

/-- Scratchpad banks in service of a core's chiplet (18 R310). -/
def State.chipBanks (s : State) (core : Nat) : Nat :=
  if h : chipOf core < 4 then s.chiplets[chipOf core].banks else 0

/-- DETAIL of 04 R98 for codes 0x06 to 0x08: W in bit 0, RMT in bit 1. -/
def Acc.isWrite : Acc → Bool
  | .store | .atomic => true
  | _ => false

def detailOf (acc : Acc) (rmt : Bool) : BitVec 12 :=
  BitVec.ofNat 12 ((if acc.isWrite then 1 else 0) + (if rmt then 2 else 0))

/-- The window an address of the window region reaches (18 R311, R312). `lane` is the physical lane of a vector element: a
scalar access has none and may not reach the lane slice (03 R70, 09 R200). -/
def State.window (s : State) (env : Env) (acc : Acc) (lane : Option Nat) (va : Nat) : Except Bad Xlat :=
  let bad : Except Bad Xlat := .error ⟨cAccess, detailOf acc false⟩
  if va < winCore then
    match lane with
    | some l => if va - winLane < 2 ^ 16 then .ok ⟨.near (laneSram env.core l + (va - winLane)), none, false⟩ else bad
    | none => bad
  else if va < winCluster then
    if va - winCore < 2 ^ 20 then .ok ⟨.near (coreSram env.core + (va - winCore)), some 0, false⟩ else bad
  else if va < winChip then
    if va - winCluster < s.contrib (clusterOf env.core) * 2 ^ 19 then
      .ok ⟨.near (clusterSram (clusterOf env.core) + (va - winCluster)), some 0, false⟩
    else bad
  else if va < winCap then
    if va - winChip < s.chipBanks env.core * 2 ^ 21 then
      .ok ⟨.near (chipSram (chipOf env.core) + (va - winChip)), some 0, false⟩
    else bad
  else if va - winCap < 2 ^ 20 ∧ acc = .load then .ok ⟨.cap (va - winCap), some 0, false⟩
  else bad

/-- Fields of a page-table entry (18 R314). -/
def pteV (e : Word) : Bool := e.getLsbD 0
def pteT (e : Word) : Bool := e.getLsbD 1
def pteR (e : Word) : Bool := e.getLsbD 2
def pteW (e : Word) : Bool := e.getLsbD 3
def pteX (e : Word) : Bool := e.getLsbD 4
def pteJ (e : Word) : Bool := e.getLsbD 5
def pteKind (e : Word) : BitVec 2 := e.extractLsb' 6 2
def pteRmt (e : Word) : Bool := e.getLsbD 8
/-- PA[43:16] shifted to its place, and PA[55:44]. -/
def pteLocal (e : Word) : Nat := (e.extractLsb' 16 28).toNat * 2 ^ 16
def ptePkg (e : Word) : BitVec 12 := e.extractLsb' 44 12

/-- Zero fields of an entry (18 R314). -/
def pteZeros (e : Word) : Bool := e.extractLsb' 56 8 == 0 && e.extractLsb' 9 7 == 0

/-- A pointer entry (18 R315): only V, T and PA are read, the rest is zero, the table lies in local HBM. -/
def State.ptePointer (s : State) (e : Word) : Option Nat :=
  if pteV e && pteT e && pteZeros e && e.extractLsb' 2 7 == 0 && ptePkg e == s.pkgnum && s.spot (pteLocal e) == .hbm then
    some (pteLocal e)
  else none

/-- A valid leaf whose page holds 2^bits bytes (18 R315). -/
def State.pteLeaf (s : State) (bits : Nat) (e : Word) : Bool :=
  pteV e && !pteT e && pteZeros e && pteKind e != 3 && !(pteW e && !pteR e)
    && pteLocal e % 2 ^ bits == 0 && ((ptePkg e == s.pkgnum) != pteRmt e)

/-- The channel and the byte within it of a local HBM address (20 R348, R349): chiplet, physical channel index, position; none in a hole. -/
def State.hbmPlace (s : State) (a : Nat) : Option (Nat × Nat × Nat) :=
  if h : a / 2 ^ 38 < 4 then
    let c := s.chiplets[a / 2 ^ 38]
    let u := a % 2 ^ 38 / 4096
    let live := (List.range 128).filter (fun ph => !c.deadChannels.contains ph)
    if a % 2 ^ 38 < c.channels * 2 ^ 31 then (live[u % c.channels]?).map (fun ph => (a / 2 ^ 38, ph, u / c.channels * 4096 + a % 4096)) else none
  else none

/-- One entry of a table (18 R318); a table in a hole has none. -/
def State.pteAt (s : State) (table idx : Nat) : Option Word :=
  match s.spot (table + 8 * idx) with
  | .hbm | .cap | .firmware => some (BitVec.ofNat 64 (s.mem.number (table + 8 * idx) 8))
  | _ => none

/-- The translation caches (18 R317) by number: the TLB of a core; the micro-TLBs of its lanes (agents 0 to 7) and of its access processor (8);
those of a cluster's copy engine (unit 0) and Welt unit (unit 1), other units have none; the walker cache of a die layer. -/
def microTlb (core agent : Nat) : Nat := 2 ^ 16 + core * 16 + agent
def engineTlb (core unit : Nat) : Nat := 2 ^ 20 + 4 * clusterOf core + unit
def walkerCache (layer : Nat) : Nat := 2 ^ 21 + layer

/-- What a translation cache holds for an address: of entries that overlap, left by different page tables, the one used most recently (log 8). -/
def State.cached (s : State) (owner root va : Nat) : Option TlbLeaf :=
  s.mem.tlb.reverse.find? (fun t => t.owner == owner && t.root == root && decide (t.base ≤ va ∧ va < t.base + t.size))

/-- The entry of a table that a walk reads for an address, where each entry spans 2^bits bytes: a pointer that the walker cache of the die layer holds
is not read again (18 R317). -/
def State.walkEntry (s : State) (layer root va bits table : Nat) : Option Word :=
  match s.mem.tlb.find? (fun t => t.owner == walkerCache layer && t.root == root && t.size == 2 ^ bits && decide (t.base ≤ va ∧ va < t.base + t.size)) with
  | some t => some t.entry
  | none => s.pteAt table (va / 2 ^ bits % 4096)

/-- The walk of 18 R313 and R315: the leaf and the bits of its page offset. `layer` names the walker cache that serves it; no die layer has number
8, whose walk reads memory alone. -/
def State.walk (s : State) (root va : Nat) (layer : Nat := 8) : Option (Word × Nat) :=
  match s.walkEntry layer root va 40 root with
  | none => none
  | some e0 =>
    if s.pteLeaf 40 e0 then some (e0, 40) else
    match s.ptePointer e0 with
    | none => none
    | some t1 =>
      match s.walkEntry layer root va 28 t1 with
      | none => none
      | some e1 =>
        if s.pteLeaf 28 e1 then some (e1, 28) else
        match s.ptePointer e1 with
        | none => none
        | some t2 =>
          match s.pteAt t2 (va / 2 ^ 16 % 4096) with
          | none => none
          | some e2 => if s.pteLeaf 16 e2 then some (e2, 16) else none

/-- The pointers that a walk of an address reads, each with its span (18 R315, R317). -/
def State.walkPointers (s : State) (root va layer : Nat) : List (Word × Nat) :=
  match s.walkEntry layer root va 40 root with
  | none => []
  | some e0 =>
    match s.ptePointer e0 with
    | none => []
    | some t1 =>
      match s.walkEntry layer root va 28 t1 with
      | none => [(e0, 40)]
      | some e1 => if (s.ptePointer e1).isSome then [(e0, 40), (e1, 28)] else [(e0, 40)]

/-- The leaf an access uses: one that a TLB in its path holds (18 R317, R320), else the walk's. -/
def State.leafFor (s : State) (owners : List Nat) (layer root va : Nat) : Option (Word × Nat) :=
  match owners.findSome? (fun o => s.cached o root va) with
  | some t => some (t.entry, Nat.log2 t.size)
  | none => s.walk root va layer

/-- The TLBs in the path of an access of a core: of the lane, else of the access processor (tiles and prefetches go by it: log 8), then the core's. -/
def coreTlbs (core : Nat) (lane : Option Nat) : List Nat := [microTlb core (lane.getD 8), core]

/-- Permission of a leaf (18 R315). -/
def permits (acc : Acc) (priv : Priv) (e : Word) : Bool :=
  (match acc with
    | .load => pteR e
    | .store => pteW e
    | .atomic => pteR e && pteW e
    | .fetch => pteX e)
  && (priv == .sup || pteJ e)

/-- Translation by way of some TLBs and its checks but alignment (03 R70, R72; 18 R311 to R316; 20 R349, R351). A host address that the host
rejects is the access fault (20 R354; DETAIL 3 for a fetch, log 34). -/
def State.translateBy (s : State) (owners : List Nat) (env : Env) (acc : Acc) (lane : Option Nat) (va : Word) : Except Bad Xlat :=
  let a := va.toNat
  let fetch := acc == .fetch
  let page : Except Bad Xlat := .error (if fetch then ⟨cFetchPage, 0⟩ else ⟨cPage, detailOf acc false⟩)
  let deny (rmt : Bool) (why : BitVec 12) : Except Bad Xlat :=
    .error (if fetch then ⟨cFetchAccess, why⟩ else ⟨cAccess, detailOf acc rmt⟩)
  if 2 ^ 52 ≤ a then page
  else if windowRegion ≤ a then (if fetch then .error ⟨cFetchAccess, 1⟩ else s.window env acc lane a)
  else
    match s.leafFor owners (layerOf env.core) env.root a with
    | none => page
    | some (e, bits) =>
      let rmt := pteRmt e
      if !permits acc env.priv e then deny rmt 0
      else
        let pa := pteLocal e + a % 2 ^ bits
        if rmt then (if fetch then deny true 2 else .ok ⟨.far (ptePkg e).toNat pa, some (pteKind e), false⟩)
        else
          match s.spot pa with
          | .hbm => .ok ⟨.near pa, some (pteKind e), pteKind e != 1⟩
          | .host => if Config.hostRejects (pa - 2 ^ 43) then deny false 3 else .ok ⟨.near pa, some 0, false⟩
          | .cap => if acc == .load && !pteW e then .ok ⟨.cap (pa - s.capBase), some (pteKind e), false⟩ else deny false 3
          | .firmware => deny false 3
          | .hole => deny false 3

/-- Translation for an access of a core. -/
def State.translate (s : State) (env : Env) (acc : Acc) (lane : Option Nat) (va : Word) : Except Bad Xlat :=
  s.translateBy (coreTlbs env.core lane) env acc lane va

/-- RMT of a misaligned access, which is raised before translation can fail (04 R98). Log 12. -/
def State.peekRemote (s : State) (env : Env) (va : Word) : Bool :=
  if 2 ^ 52 ≤ va.toNat ∨ windowRegion ≤ va.toNat then false
  else match s.leafFor (coreTlbs env.core none) (layerOf env.core) env.root va.toNat with
    | some (e, _) => pteRmt e
    | none => false

/-- The route of a package (21 R378): V and XO. An entry never written is 0. -/
def State.route (s : State) (pkg : Nat) : Word :=
  match s.fab.routes.find? (fun r => r.1 == pkg) with
  | some r => r.2
  | none => 0

def routeV (w : Word) : Bool := w.getLsbD 63
def routeXo (w : Word) : Bool := w.getLsbD 62

/-- Whether ordinary accesses reach a package: V = 1 and XO = 0 (21 R380, R382). -/
def State.reaches (s : State) (pkg : Nat) : Bool := routeV (s.route pkg) && !routeXo (s.route pkg)

end Sys2Proof.Machine
end

