-- ==== Sys2Proof/Machine/Route.lean ====
section
/-!
DEFINITION. How a packet leaves the package: routes, dimension order, detours, ports, replay rings (21 R375 to R380), and the
counts that beacons and sweeps use (21 R385, R386, R393).
-/
namespace Sys2Proof.Machine

/-- Coordinates of a route entry, dimensions A, B, C, D as 0 to 3 (21 R378). -/
def coord (w : Word) (dim : Nat) : Nat := (w.extractLsb' (4 * dim) 4).toNat

/-- Size of a dimension of the pod (21 R378). -/
def State.dimSize (s : State) (dim : Nat) : Nat := (s.fab.podcfg.extractLsb' (4 * dim) 4).toNat + 1

/-- This package's own coordinates stand in the route-map entry of its own number. Log 13. -/
def State.ownCoord (s : State) (dim : Nat) : Nat := coord (s.route s.pkgnum.toNat) dim

def State.linkUp (s : State) (n : Nat) : Bool :=
  match s.fab.links[n]? with
  | some l => l.state == 2
  | none => false

/-- A link of a direction that is up: the lowest. Log 13. -/
def State.linkIn (s : State) (dir : Nat) : Option Nat :=
  ([4 * dir, 4 * dir + 1, 4 * dir + 2, 4 * dir + 3]).find? (fun n => s.linkUp n)

/-- The direction a packet takes in one dimension (21 R379): the shorter way round a torus, + on a tie; the only way on a mesh. -/
def State.wayIn (s : State) (dim own dst : Nat) : Nat :=
  if dim < 2 then (if own < dst then 2 * dim else 2 * dim + 1)
  else
    let size := s.dimSize dim
    if 2 * ((dst + size - own) % size) ≤ size then 2 * dim else 2 * dim + 1

/-- The first step of a detour round a failed neighbour in dimension dim (21 R379). -/
def State.detour (s : State) (dim : Nat) : Option Nat :=
  let out := if dim = 0 then 1 else if dim = 1 then 0 else if s.dimSize 0 = 1 then 1 else 0
  if s.dimSize out = 1 then none
  else s.linkIn (if s.ownCoord out < s.dimSize out - 1 then 2 * out else 2 * out + 1)

/-- The link a packet to a package of the pod leaves on: dimension order D, C, B, A, and round a failed neighbour (21 R379). `via` is the
direction of the link that a packet in transit came in on. One that dimension order would send straight back has stepped out round a
failed neighbour, and goes on in its own dimension; it steps back once the link back is up. Log 29. -/
def State.linkTo (s : State) (via : Option Nat) (pkg : Nat) : Option Nat :=
  let way (dim : Nat) : Nat := s.wayIn dim (s.ownCoord dim) (coord (s.route pkg) dim)
  match [3, 2, 1, 0].filter (fun dim => coord (s.route pkg) dim != s.ownCoord dim) with
  | [] => none
  | dim :: rest =>
    match via, rest with
    | some d, next :: _ =>
      if d = way dim then s.linkIn (way next)
      else
        match s.linkIn (way dim) with
        | some n => some n
        | none => if dim = 1 ∧ d / 2 = 0 ∧ d ≠ way 0 then s.linkIn (way 0) else s.detour dim
    | _, _ =>
      match s.linkIn (way dim) with
      | some n => some n
      | none => s.detour dim

/-- The scale-out ports that are up. -/
def State.portsUp (s : State) : List Nat :=
  (List.range 10).filter (fun n => match s.fab.ports[n]? with | some p => p.up | none => false)

/-- The port a datagram leaves on: by a hash of the destination over the ports that are up (21 R380). Log 13. -/
def State.portFor (s : State) (dst : Nat) : Option Nat := s.portsUp[Config.portHash dst % s.portsUp.length]?

/-- The IPv6 address of a package (21 R380): PREFIX and the package number. -/
def State.ipv6 (s : State) (pkg : Nat) : BitVec 128 := s.fab.prefixes ++ BitVec.ofNat 64 pkg

/-- The UDP port of both ends (21 R380). -/
def udpPort : Nat := 47104

/-- Whether a packet fits the 240 bytes of payload of a flit (21 R376, R383): one destination line of written bytes; an index list of 240 bytes, 8
to an index, of which none asks for more than a line; 240 bytes of reply. Log 29. -/
def packetFits : Packet → Bool
  | .write _ _ _ bytes _ => decide ((bytes.map (fun b => b.addr)).Nodup) && bytes.all (fun b => bytes.all (fun o => b.addr / 128 == o.addr / 128))
  | .loadReq items => decide (items.length ≤ 30) && items.all (fun i => decide (i.2.2 ≤ 128))
  | .loadReply items => decide ((items.map (fun i => (i.2.getD []).length)).sum ≤ 240)
  | _ => true

/-- The items of a load request that one packet carries, and those left (21 R383). -/
def takeReply : Nat → List (Nat × Option (List (Byte × Bool))) → List (Nat × Option (List (Byte × Bool))) × List (Nat × Option (List (Byte × Bool)))
  | _, [] => ([], [])
  | room, i :: r =>
    if (i.2.getD []).length ≤ room then ((i :: (takeReply (room - (i.2.getD []).length) r).1), (takeReply (room - (i.2.getD []).length) r).2)
    else ([], i :: r)

/-- Cut a list into packets of at most n (21 R383). -/
def chunksOf {α : Type} (n : Nat) (l : List α) : List (List α) :=
  (List.range ((l.length + n - 1) / n)).map (fun i => (l.drop (n * i)).take n)

/-- Reads sorted by owning package, with one request for 240 bytes of index list (21 R383). -/
def requestsOf (reads : List (Nat × Nat × Nat)) : List (Nat × List (Nat × Nat)) :=
  (distinct (reads.map (·.1))).flatMap (fun pkg => (chunksOf 30 ((reads.filter (fun r => r.1 == pkg)).map (·.2))).map (fun c => (pkg, c)))

/-- Replies cut into packets of at most 240 bytes (21 R376). -/
def replyPackets : Nat → List (Nat × Option (List (Byte × Bool))) → List (List (Nat × Option (List (Byte × Bool))))
  | 0, _ => []
  | _, [] => []
  | fuel + 1, i :: r => (i :: (takeReply (240 - (i.2.getD []).length) r).1) :: replyPackets fuel (takeReply (240 - (i.2.getD []).length) r).2

/-- Put a flit on a link: next sequence number, replay ring of 4096 (21 R376). -/
def Link.push (l : Link) (src dst : Nat) (p : Packet) : Link :=
  { l with nextSeq := l.nextSeq + 1, ring := ((l.nextSeq, src, dst, p) :: l.ring).take 4096 }

/-- Send a packet of a source (21 R379, R380); `via` as for State.linkTo. None when it is discarded: no route, or no way. -/
def State.sendFrom (s : State) (via : Option Nat) (src dst : Nat) (p : Packet) : Option State :=
  if !routeV (s.route dst) then none
  else if routeXo (s.route dst) then
    match s.portFor dst with
    | some n =>
      some { s with fab := { s.fab with
        outbox := s.fab.outbox ++ [(src, dst, p)]
        datagrams := s.fab.datagrams ++ [⟨n, s.ipv6 src, s.ipv6 dst, udpPort, p⟩] } }
    | none => none
  else
    match s.linkTo via dst with
    | none => none
    | some n =>
      if h : n < 32 then
        some { s with fab := { s.fab with
          outbox := s.fab.outbox ++ [(src, dst, p)]
          links := s.fab.links.set n (s.fab.links[n].push src dst p) } }
      else none

/-- Send a packet of this package. -/
def State.send (s : State) (dst : Nat) (p : Packet) : Option State := s.sendFrom none s.pkgnum.toNat dst p

/-- Send, or lose the packet (21 R376). -/
def State.sendOrLose (s : State) (dst : Nat) (p : Packet) : State := (s.send dst p).getD s

/-- Whether a sender entry counts the packets of a thread to a package (21 R386): those that a thread that has gone left behind too (R392). -/
def Sender.counts (c : Sender) (tid pkg : Nat) : Bool := c.tid == tid && c.pkg == pkg && c.opened && c.closing.isNone

/-- The channel of a thread to a package (21 R386). -/
def State.channelTo (s : State) (tid pkg : Nat) : Option Nat := (s.fab.senders.find? (fun c => c.counts tid pkg)).map (·.chan)

/-- A packet counts in SENT of its channel (21 R386). -/
def State.countSent (s : State) (tid dst : Nat) : State :=
  { s with fab := { s.fab with senders := s.fab.senders.map (fun c => if c.counts tid dst then { c with sent := c.sent + 1 } else c) } }

/-- A counted packet of thread tid (21 R385): SENT rises as it leaves (R386). `way` says that its route serves it; it is discarded where that does
not, and where it has no way, and counts all the same: it is lost as R376 says, which the beacon shows (R379, R382). Log 14. -/
def State.sendCounted (s : State) (way : Bool) (tid dst : Nat) (mk : Option Nat → Packet) : State :=
  (if way then s.sendOrLose dst (mk (s.channelTo tid dst)) else s).countSent tid dst

/-- Add a packet to a sweep set, kept rising by package (21 R393). -/
def sweepAdd (pkg : Nat) : List (Nat × Nat) → List (Nat × Nat)
  | [] => [(pkg, 1)]
  | (p, n) :: r => if pkg < p then (pkg, 1) :: (p, n) :: r else if p = pkg then (p, n + 1) :: r else (p, n) :: sweepAdd pkg r

/-- A counted packet of the thread in focus, to a package of its own pod (21 R382, R393). -/
def State.sendMine (s : State) (dst : Nat) (mk : Option Nat → Packet) : State :=
  let s' := s.sendCounted (s.reaches dst) s.me.tid dst mk
  { s' with me := { s'.me with sweep := sweepAdd dst s'.me.sweep } }

end Sys2Proof.Machine
end

