-- ==== Sys2Proof/Machine/Launches.lean ====
section
/-!
DEFINITION. Crews, retirement and the end of a launch (15 R283 to R295, 04 R101).
-/
namespace Sys2Proof.Machine

/-- Every thread of the package. -/
def State.threads (s : State) : List Thread := s.me :: s.others

/-- Change every thread. -/
def State.mapThreads (s : State) (f : Thread → Thread) : State := { s with me := f s.me, others := s.others.map f }

/-- Fields of a launch block (02 R54). -/
def blkEntry (b : BitVec 512) : Word := b.extractLsb' 0 64
def blkArg (b : BitVec 512) : Word := b.extractLsb' 64 64
def blkCount (b : BitVec 512) : Nat := (b.extractLsb' 128 32).toNat
def blkCrew (b : BitVec 512) : BitVec 16 := b.extractLsb' 160 16
def blkCmode (b : BitVec 512) : Nat := (b.extractLsb' 176 8).toNat
def blkGrant (b : BitVec 512) : Nat := (b.extractLsb' 184 8).toNat
def blkPrio (b : BitVec 512) : BitVec 8 := b.extractLsb' 192 8
def blkSup (b : BitVec 512) : Bool := b.getLsbD 199
def blkLevel (b : BitVec 512) : Nat := (b.extractLsb' 192 3).toNat
def blkSigv (b : BitVec 512) : BitVec 32 := b.extractLsb' 224 32
def blkMask (b : BitVec 512) : BitVec 128 := b.extractLsb' 256 128
def blkCrec (b : BitVec 512) : Word := b.extractLsb' 384 64
def blkSiga (b : BitVec 512) : Word := b.extractLsb' 448 64

/-- Free crew records with no member and no live launch (15 R283). -/
def freeCrews (l : List Crew) : List Crew := l.filter (fun c => c.members != 0 || c.live != 0)

/-- One member leaves a crew; crew 0 names no record (01 R11). -/
def State.crewLeave (s : State) (num : BitVec 16) : State :=
  { s with crews := freeCrews (s.crews.map (fun c => if c.num == num then { c with members := c.members - 1 } else c)) }

/-- A retired thread (01 R23): its window, waits and values are gone, its streams closed, its membership ended; stores it has
released stay in `st` and `gq` (15 R287, R293). -/
def Thread.retire (t : Thread) : Thread :=
  { t with
    status := .retired
    win := []
    held := false
    vals := []
    owed := []
    wait := none
    fault := none
    remote := []
    ask := .none
    exiting := none
    imgBad := false
    streams := Vector.replicate 4 Stream.closed
    crew := 0
    due := .none
    before := none
    cbk := none }

/-- Whether a thread that runs stands between the slots of a pair word (02 R46): slot 0 is done and slot 1 has neither completed nor trapped. -/
def Thread.between (t : Thread) : Bool := t.status == .running && t.only1 && t.fault.isNone

/-- Change one launch. -/
def State.withLaunch (s : State) (lid : Nat) (f : Launch → Launch) : State :=
  { s with launches := s.launches.map (fun l => if l.lid == lid && l.live then f l else l) }

/-- Count retirements in the launch's record; the last one fixes TEND (15 R294). -/
def Launch.addRetired (l : Launch) (n now : Nat) : Launch :=
  { l with retired := l.retired + n, tend := if l.retired + n = blkCount l.block then now else l.tend }

/-- A fault of the launch, reported now (15 R294): FAULTS saturates, the first one fills FCODE to FADDR. -/
def Launch.addFault (l : Launch) (code src : BitVec 8) (tid : Nat) (addr : Word) : Launch :=
  { l with
    faults := min (l.faults + 1) (2 ^ 32 - 1)
    fcode := if l.faults = 0 then code else l.fcode
    fsrc := if l.faults = 0 then src else l.fsrc
    ftid := if l.faults = 0 then tid else l.ftid
    faddr := if l.faults = 0 then addr else l.faddr }

/-- Threads of a launch that have not retired. -/
def State.alive (s : State) (lid : Nat) : List Thread :=
  s.threads.filter (fun t => t.lid == lid && t.status != .retired)

/-- The channels of threads that have gone are to be closed, with no thread to wait (21 R392): the close leaves by itself once the wait of R392 is
over (Machine/Fabric.lean). -/
def State.closeChannels (s : State) (tids : List Nat) : State :=
  { s with fab := { s.fab with senders := s.fab.senders.map (fun c => if tids.contains c.tid then { c with gone := true } else c) } }

/-- A thread that traps, is parked or ends leaves the matrix queue of its core, and the engine where it was running (06 R129, 10 R238). -/
def CoreRec.leave (c : CoreRec) (tid : Nat) : CoreRec :=
  { c with mq := c.mq.filter (fun t => t != tid), engine := c.engine && c.mq.head? != some tid }

def State.leaveEngine (s : State) (tid : Nat) : State := { s with cores := s.cores.map (fun c => c.leave tid) }

/-- End a launch (15 R293): every thread of it that has not retired retires; END is `code` unless it is set already. A thread that had reached
exit retires with the status exit gives (01 R26). A running thread between the slots of a pair word retires once it has left them. -/
def State.endLaunch (s : State) (lid code : Nat) : State :=
  let all := s.alive lid
  let gone := all.filter (fun t => !t.between)
  let s := gone.foldl (fun s t => s.crewLeave t.crew) s
  let s := s.closeChannels (gone.map (·.tid))
  let s := gone.foldl (fun s t => s.leaveEngine t.tid) s
  let s := s.mapThreads (fun t =>
    if t.lid == lid && t.status != .retired then (if t.between then { t with due := .retire } else t.retire) else t)
  s.withLaunch lid (fun l =>
    { (if gone.length = 0 then l else l.addRetired gone.length s.time) with
      endCode := if all.any (fun t => t.exiting.isNone) ∧ l.endCode = 0 then code else l.endCode
      xcode := gone.foldl (fun c t => c ||| t.exiting.getD 0) l.xcode })

end Sys2Proof.Machine
end

