-- ==== Sys2Proof/Machine/Table.lean ====
section
/-!
DEFINITION. What a part is made of and how it says so: working lanes, and the capability table (20 R361, R362), read as bytes.
-/
namespace Sys2Proof.Machine

/-- Working lanes of a core: none of a fenced one (19 R330, R346). -/
def State.coreLanes (s : State) (core : Nat) : BitVec 8 :=
  match s.cores.find? (fun c => c.core == core) with
  | some c => if c.fenced then 0 else ~~~c.badLanes
  | none => 0xFF

/-- FVER (20 R363). -/
def State.fver (s : State) : Word := s.host.build ++ s.host.epoch

/-- A part of the table: its length, and its bytes by offset. -/
abbrev TablePart := Nat × (Nat → Byte)

/-- A record (20 R361): TYPE, FLAGS, LEN, the value, zeros up to 8 bytes. -/
def recordBytes (type flags : Nat) (value : List Byte) : List Byte :=
  leBytes 2 type ++ leBytes 2 flags ++ leBytes 4 value.length ++ value ++ List.replicate ((8 - value.length % 8) % 8) 0

/-- Bytes a record takes. -/
def recordSize (value : List Byte) : Nat := 8 + (value.length + 7) / 8 * 8

def recordPart (type flags : Nat) (value : List Byte) : TablePart := (recordSize value, fun i => (recordBytes type flags value).getD i 0)

/-- A SIGNATURE record (20 R362) of a signer: 0 the Bamlen product key, 1 the device identity key. -/
def signaturePart (flags signer : Nat) (sig : Nat → Byte) : TablePart :=
  (29808, fun i => if i < 16 then (leBytes 2 0x0F00 ++ leBytes 2 flags ++ leBytes 4 29800 ++ leBytes 8 signer).getD i 0 else sig (i - 16))

/-- The byte at an offset of some parts; zero past their end. -/
def partByte : List TablePart → Nat → Byte
  | [], _ => 0
  | p :: r, o => if o < p.1 then p.2 o else partByte r (o - p.1)

/-- The values of the records that a part's composition decides (20 R362): LANES, CLUSTERS, MEMORY, LINKS. -/
def State.lanesValue (s : State) : List Byte := (List.range 1536).map s.coreLanes
def State.clustersValue (s : State) : List Byte :=
  leBytes 16 ((List.range 96).foldl (fun m c => if s.clusters.any (fun x => x.id == c && x.enabled) then m + 2 ^ c else m) 0)
    ++ (List.range 96).map (fun c => BitVec.ofNat 8 (s.contrib c))
def State.memoryValue (s : State) : List Byte :=
  (List.finRange 4).flatMap (fun c =>
    leBytes 8 (s.chipBytes c - (if c = 0 then 2 ^ 28 else 0)) ++ leBytes 4 s.chiplets[c].channels ++ leBytes 4 s.chiplets[c].slices
      ++ leBytes 8 (s.chiplets[c].banks * 2 ^ 21))
def State.linksValue (s : State) : List Byte := leBytes 8 ((~~~s.fab.fenced).toNat + 0x3FF * 2 ^ 32)

/-- Scope costs as shipped, typical and worst, by scope code (11 R251, R253). -/
def scopeCosts : List (Nat × Nat) := [(3, 8), (14, 48), (60, 220), (110, 420), (190, 760), (380, 2100), (4200, 8750000)]

/-- The records of the ROM (20 R362), those of a fully enabled part: TYPE and value. -/
def romRecords : List (Nat × List Byte) :=
  [(1, [8, 12, 16, 8]), (2, State.reset.lanesValue), (3, State.reset.clustersValue),
    (4, ((List.range 7).zip scopeCosts).flatMap (fun p => leBytes 4 p.1 ++ leBytes 4 p.2.1 ++ leBytes 4 p.2.2)),
    (5, State.reset.memoryValue), (6, leBytes 8 shippedAging ++ leBytes 8 shippedSlice), (7, State.reset.linksValue),
    (11, (List.range 64).map (Config.keyGenPublic factorySeed))]

/-- The records in the order of the ROM, which the spec leaves open. Log 6. -/
def romInsert (r : Nat × List Byte) : List (Nat × List Byte) → List (Nat × List Byte)
  | [] => [r]
  | o :: l => if Config.romRank r.1 < Config.romRank o.1 then r :: o :: l else o :: romInsert r l

def romOrdered : List (Nat × List Byte) := romRecords.foldr romInsert []

/-- ROMLEN: the header, the records, and their SIGNATURE record (20 R361). -/
def romLen : Nat := 0x40 + 1992 + 29808

/-- The header from PARTID on (20 R361). -/
def headTail : List Byte := leBytes 4 0x5C091536 ++ leBytes 4 romLen ++ (List.range 16).map Config.serialByte ++ List.replicate 16 0

/-- The ROM after its header: the records, then the SIGNATURE record by the product key over bytes 0x18 to its start (20 R362). -/
def romParts : List TablePart :=
  romOrdered.map (fun r => recordPart r.1 0 r.2)
    ++ [signaturePart 0 0 (Config.productSignature (headTail ++ romOrdered.flatMap (fun r => recordBytes r.1 0 r.2)))]

/-- What the signature of an appended record covers: SERIAL, FVER, the record (20 R362). -/
def CapRecord.signed (r : CapRecord) : List Byte :=
  (List.range 16).map Config.serialByte ++ leBytes 8 r.fver.toNat ++ recordBytes r.type 1 r.value

/-- An appended record and its SIGNATURE record; `key` is the identity private key of this boot. -/
def CapRecord.parts (key : List Byte) (r : CapRecord) : List TablePart :=
  [recordPart r.type 1 r.value,
    signaturePart 1 (if r.product then 0 else 1) (if r.product then Config.productSignature r.signed else Config.identitySignature key r.signed)]

def CapRecord.size (r : CapRecord) : Nat := recordSize r.value + 29808

/-- LEN and NREC of the table (20 R361). -/
def State.capLen (s : State) : Nat := romLen + (s.host.capTail.map CapRecord.size).sum
def State.capCount (s : State) : Nat := 9 + 2 * s.host.capTail.length

/-- Byte o of the capability table (20 R361; 18 R312: bytes at and beyond LEN read as zero): header, ROM, appended records. -/
def State.capByte (s : State) (o : Nat) : Byte :=
  if o < 0x18 then (leBytes 8 0x0000534341500001 ++ leBytes 4 s.capLen ++ leBytes 4 s.capCount ++ leBytes 8 s.host.capFver.toNat).getD o 0
  else if o < 0x40 then headTail.getD (o - 0x18) 0
  else if o < romLen then partByte romParts (o - 0x40)
  else partByte (s.host.capTail.flatMap (CapRecord.parts s.host.signKey)) (o - romLen)

def State.capBytes (s : State) (o n : Nat) : List Byte := (List.range n).map (fun i => s.capByte (o + i))

/-- Firmware appends a record to the table (20 R361, R362), which takes at most 1 MiB (R351): one that does not fit is not appended (log 6). -/
def State.append (s : State) (type : Nat) (value : List Byte) (product : Bool) : State :=
  let r : CapRecord := ⟨type, value, s.fver, product⟩
  if 2 ^ 20 < s.capLen + r.size then s
  else { s with host := { s.host with capTail := s.host.capTail ++ [r], capFver := s.fver } }

/-- Append a record that a part's composition has changed. -/
def State.appendChanged (s : State) (type : Nat) (value rom : List Byte) : State := if value = rom then s else s.append type value false

/-- The table of a boot (20 R361, R367 step 7): as copied from the ROM, then the records that fenced units change, then LNTSTAT and LNTFIRST,
which firmware reads and so clears (19 R341). -/
def State.bootTable (s : State) : State :=
  let s := { s with host := { s.host with capTail := [], capFver := s.fver } }
  let s := s.appendChanged 2 s.lanesValue State.reset.lanesValue
  let s := s.appendChanged 3 s.clustersValue State.reset.clustersValue
  let s := s.appendChanged 5 s.memoryValue State.reset.memoryValue
  let s := s.appendChanged 7 s.linksValue State.reset.linksValue
  let s := s.append 8 (lanternRecord s.power.lntstat s.power.lntfirst s.fver).value false
  { s with power := { s.power with lntstat := 0, lntfirst := 0 } }

end Sys2Proof.Machine
end

