-- ==== Sys2Proof/Machine/Ops.lean ====
section
/-!
DEFINITION. Operations over registers, traps and memory that the meanings share.
-/
namespace Sys2Proof.Machine

/-- What exec and step answer. -/
abbrev Out := Host.Outcome State Fault Refusal

/-- x0 reads as 0 (01 R12). -/
def Thread.getX (t : Thread) (r : XReg) : Word :=
  if r = 0 then 0 else t.x[r.toNat]'(by have := r.isLt; omega)

/-- Writes to x0 are discarded (01 R12). -/
def Thread.setX (t : Thread) (r : XReg) (w : Word) : Thread :=
  if r = 0 then t else { t with x := t.x.set r.toNat w (by have := r.isLt; omega) }

def State.getX (s : State) (r : XReg) : Word := s.me.getX r
def State.setX (s : State) (r : XReg) (w : Word) : State := { s with me := s.me.setX r w }
def State.setPc (s : State) (w : Word) : State := { s with me := { s.me with pc := w } }

/-- Continue at the next word (02 R30). -/
def State.bump (s : State) : State := s.setPc (s.me.pc + 8)

/-- The instruction has not taken effect and is tried again: the thread stays where it is. -/
def stall (s : State) : Out := .next s

/-- Write a result and continue. -/
def finish (s : State) (d : XReg) (w : Word) : Out := .next (s.setX d w).bump

/-- The environment the thread in focus translates in. -/
def Thread.env (t : Thread) : Env := ⟨t.core, t.lmask, t.root, t.priv⟩
def State.env (s : State) : Env := s.me.env

/-- Bytes a fetch returns: a line of the core's instruction cache where it is there (05 R113, 06 R139), else memory. -/
def State.fetchNumber (s : State) (a : Nat) : Nat :=
  match s.mem.icache.find? (fun l => l.core == s.me.core && l.line == a / 128) with
  | some l => leNat ((l.data.drop (a % 128)).take 8)
  | none => s.mem.number a 8

/-- The word at an address of the thread in focus, or why it cannot be fetched (05 R113, 18 R311, R316). A poisoned word is
consumed by the fetch that issue needs (19 R344). Log 15. -/
def State.fetchAt (s : State) (pc : Word) : Except Bad Word :=
  match s.translate s.env .fetch none pc with
  | .error b => .error b
  | .ok x =>
    match x.place with
    | .near h => if (s.mem.poisonAt h 8).isSome then .error ⟨cPoison, 0⟩ else .ok (BitVec.ofNat 64 (s.fetchNumber h))
    | .cap _ => .error ⟨cFetchAccess, 3⟩
    | .far _ _ => .error ⟨cFetchAccess, 2⟩

/-- Whether the word at an address is a P-form word (02 R31, R45). -/
def State.pairAt (s : State) (pc : Word) : Bool :=
  match s.fetchAt pc with
  | .ok w => w.extractLsb' 62 2 == 1
  | .error _ => false

/-- Granted lanes (06 R116). -/
def Thread.lanes (t : Thread) : Nat := (bitsOf t.lmask).length

/-- Grouping, element width in bits, elements per group, VLMAX (06 R118, R119). -/
def VType.group (v : VType) : Nat := 2 ^ v.grp.toNat
def VType.width (v : VType) : Nat := 2 ^ (v.wid.toNat + 2)
def VType.perGroup (v : VType) : Nat := 256 / v.width
def VType.vlmax (v : VType) (lanes : Nat) : Nat := lanes * 4 * v.group * v.perGroup

/-- Element groups of block j of 32 elements, among the first n (08 R185). -/
def blockGroups (perGroup n j : Nat) : List Nat :=
  (List.range n).filter (fun g => decide (g * perGroup < 32 * (j + 1) ∧ 32 * j < (g + 1) * perGroup))

/-- Blocks of vsegmax from the block of its first element on. -/
def Entry.segBlocks (e : Entry) : List Nat := (List.range ((e.vl + 31) / 32)).filter (fun j => decide (e.vstart / 32 ≤ j))

/-- Groups of block j of an entry. -/
def Entry.segGroups (e : Entry) (j : Nat) : List Nat :=
  blockGroups e.vtype.perGroup ((e.vl + e.vtype.perGroup - 1) / e.vtype.perGroup) j

/-- Blocks of vsegmax whose byte is not written: one of their groups has still to contribute (08 R186). -/
def Entry.openBlocks (e : Entry) : List Nat := e.segBlocks.filter (fun j => (e.segGroups j).any (fun g => !e.map0.getLsbD g))

/-- Clear bits of a completion map. -/
def clearBits (m : BitVec 256) (gs : List Nat) : BitVec 256 := gs.foldl (fun m g => m &&& ~~~(BitVec.twoPow 256 g)) m

/-- Groups of a slot that its lanes have done with and that a trap makes incomplete again (04 R94): those its store buffers hold, and contributions to
unwritten blocks (08 R186). -/
def Entry.recalled (e : Entry) (second : Bool) : List Nat :=
  (e.held.filter (fun h => h.second == second)).map (·.group) ++
    (match e.op with | .vsegmax _ _ _ _ => (if second then [] else e.openBlocks.flatMap e.segGroups) | _ => [])

/-- A held window entry (04 R94): delivered parts, samples, contributions to unwritten blocks (08 R186) and store-buffer groups are
discarded, and the discarded groups are not complete. -/
def Entry.discard (e : Entry) : Entry :=
  let samples : List Nat := match e.op with
    | .vgamRd _ _ => List.range 256
    | _ => []
  { e with
    delivered := 0
    held := []
    queued := false
    mq := false
    parts := []
    map0 := clearBits e.map0 (e.recalled false ++ samples)
    map1 := clearBits e.map1 (e.recalled true) }

/-- Form the window (04 R93, R94, R101). -/
def Thread.freeze (t : Thread) : Thread :=
  { t with win := t.win.map Entry.discard, held := !t.win.isEmpty, fault := none, wait := none, remote := [], ask := .none, cbk := none }

/-- The entry of `val` of a value-returning instruction that traps is freed (03 R91): it is reserved again on replay. -/
def freeValue : List Entry → List Entry
  | [] => []
  | e :: r => { e with reserved := false } :: r

/-- ESLOT (02 R45): whether the word at pc is a P-form word, and whether it was reached with slot 0 done. A word that cannot be fetched
leaves that as it stands. -/
def State.slotWord (s : State) : BitVec 2 :=
  match s.fetchAt s.me.pc with
  | .ok _ => BitVec.ofBool (s.pairAt s.me.pc) ++ BitVec.ofBool (s.pairAt s.me.pc && s.me.only1)
  | .error _ => BitVec.ofBool s.me.only1 ++ BitVec.ofBool s.me.only1

/-- Change the error counters of a die (19 R343). -/
def State.withErrors (s : State) (die : Nat) (f : Errors → Errors) : State :=
  if h : die < 12 then { s with power := { s.power with errors := s.power.errors.set die (f s.power.errors[die]) } } else s

/-- A 32-bit count that saturates (19 R343). -/
def satInc (n : BitVec 32) : BitVec 32 := if n = BitVec.allOnes 32 then n else n + 1

/-- The row at which a running mma, mld or mst stands, which a trap writes to VSTART (10 R231, R238). -/
def Entry.rowStop (e : Entry) : Option Nat :=
  match e.op with
  | .mma _ _ _ _ _ _ _ => some e.vstart
  | .mld _ _ _ _ => some e.vstart
  | .mst _ _ _ _ => some e.vstart
  | _ => none

/-- A channel the thread in focus was opening is given up, as a refused open is (21 R387): the instruction that waited for the
reply is executed again. -/
def State.abandonOpen (s : State) : State :=
  let mine (c : Sender) : Bool := c.tid == s.me.tid && !c.opened && !c.gone
  let s' := (s.fab.senders.filter mine).foldl (fun s c => s.sendOrLose c.pkg (.close c.chan 0 s.me.bto.toNat)) s
  { s' with fab := { s'.fab with senders := s'.fab.senders.filter (fun c => !mine c) } }

/-- TAKING A TRAP (04 R97 to R101). With TIP = 1 or TVEC = 0 the launch ends. A
poisoned-data trap counts CONS on the die of the core (19 R344). -/
def State.enterTrap (s : State) (t : Trap) : State :=
  let s := if t.code == cPoison then s.withErrors (layerOf s.me.core) (fun e => { e with cons := satInc e.cons }) else s
  if s.me.tip || s.me.tvec == 0 then
    (({ s with me := { s.me with exiting := none, only1 := false } } : State).withLaunch s.me.lid (fun l => l.addFault (if s.me.tip then cDouble else t.code) 0 s.me.tid t.addr)).endLaunch s.me.lid 1
  else
    let slot := s.slotWord
    let s := s.abandonOpen.leaveEngine s.me.tid
    let t' := s.me.freeze
    { s with me := { t' with
        status := .running
        epc := s.me.pc
        ecause := (t.src ++ t.code).setWidth 64
        einfo := t.detail ++ t.pc.setWidth 52
        eaddr := t.addr
        eslot := slot
        win := if t.vstart.isSome then freeValue t'.win else t'.win
        estream := t.stream
        vstart := match t.vstart, s.me.win.head?.bind Entry.rowStop with
          | some n, _ => BitVec.ofNat 64 n
          | none, some n => if s.me.held then s.me.vstart else BitVec.ofNat 64 n
          | none, none => s.me.vstart
        psup := s.me.priv == .sup
        tip := true
        priv := .sup
        only1 := false
        exiting := none
        pc := s.me.tvec } }

/-- A trap of the access processor at the word at pc: SRC 00, PC equal to EPC (04 R98). -/
def State.trapA (s : State) (code : BitVec 8) (detail : BitVec 12) (addr : Word) : State :=
  s.enterTrap ⟨code, 0, detail, addr, s.me.pc, none, 0⟩

def trapA (s : State) (code : BitVec 8) (detail : BitVec 12) (addr : Word) : Out := .next (s.trapA code detail addr)

/-- A supervisor instruction at job level (02 R38 row 7). -/
def supervisorOnly (s : State) (act : State → Out) : Out :=
  if s.me.priv = .sup then act s else trapA s cPrivilege 0 0

/-- RETURN FROM A TRAP (04 R103) but for the replay of the window, which then runs as R96 says: the oldest entry
takes a VSTART that a fault wrote, issue continues at EPC, at slot 1 alone when ESLOT says so (02 R44). -/
def State.leaveTrap (s : State) : State :=
  let t := s.me
  { s with me := { t with
      priv := if t.psup then .sup else .job
      tip := false
      held := false
      win := match t.held, t.win with
        | true, e :: r =>
          ({ e with vstart := if t.vstart = 0 then e.vstart else t.vstart.toNat } :: r).map (fun o =>
            { o with reserved := o.ret.isSome, replay := true })
        | _, w => w
      vstart := if t.held then 0 else t.vstart
      only1 := t.eslot == 3
      before := if t.eslot = 3 then t.before else none
      pc := t.epc } }

/-- Registers whose value has not arrived (01 R21): x0 is never pending (03 R91). -/
def Thread.pending (t : Thread) (r : XReg) : Bool :=
  r != 0 && (t.win.any (fun e => e.ret == some r) || t.vals.any (fun v => v.dest == r) || t.owed.any (fun o => o.1 == r))

/-- Reserved entries of the value queue (01 R21). -/
def Thread.valuesReserved (t : Thread) : Nat :=
  (t.win.filter (fun e => e.reserved)).length + t.vals.length + (t.owed.filter (fun o => o.2)).length

/-- Answers of a read. -/
inductive Got where
  | bytes (l : List Byte)
  | empty
  | poisoned
  | denied (b : Bad)
  | lost (pkg : Nat)
  | later
  deriving DecidableEq, Repr

/-- One index-list request to a package (21 R383, R384), by address and size: each item of it has a serial number, under which what comes of it is
kept. -/
def State.request (s : State) (pkg : Nat) (items : List (Nat × Nat)) : State × List RemoteLoad :=
  let ser := s.fab.nextSer
  let s1 := s.sendOrLose pkg (.loadReq (((List.range items.length).zip items).map (fun p => (ser + p.1, p.2.1, p.2.2))))
  ({ s1 with fab := { s1.fab with nextSer := ser + items.length } },
    ((List.range items.length).zip items).map (fun p => ⟨ser + p.1, pkg, p.2.1, p.2.2, s.time, .none⟩))

/-- A request of the thread in focus. -/
def State.askList (s : State) (pkg : Nat) (items : List (Nat × Nat)) : State :=
  let p := s.request pkg items
  { p.1 with me := { p.1.me with remote := p.1.me.remote ++ p.2 } }

/-- Ask the owner of a remote address (21 R384): the request leaves once, the reply is taken when it has come. -/
def State.readFar (s : State) (pkg addr n : Nat) : Got × State :=
  match s.me.remote.find? (fun r => r.pkg == pkg && r.addr == addr && r.size == n) with
  | some r =>
    match r.reply with
    | .data l =>
      (if l.any (·.2) then .poisoned else .bytes (l.map (·.1)), { s with me := { s.me with remote := s.me.remote.erase r } })
    | .denied => (.denied ⟨cAccess, 2⟩, { s with me := { s.me with remote := s.me.remote.erase r } })
    | .lost => (.lost pkg, { s with me := { s.me with remote := s.me.remote.erase r } })
    | .none => (.later, s)
  | none =>
    if s.reaches pkg then (.later, s.askList pkg [(addr, n)]) else (.denied ⟨cAccess, 2⟩, s)

/-- A translation of the thread in focus that a micro-TLB serves uses its entry most recently (18 R317): that of a physical lane, or of the access
processor. -/
def State.hit (s : State) (lane : Option Nat) (va : Word) : State :=
  match s.cached (microTlb s.me.core (lane.getD 8)) s.me.root va.toNat with
  | some e => { s with mem := { s.mem with tlb := s.mem.tlb.erase e ++ [e] } }
  | none => s

/-- Memory after a read of the thread in focus at a home: one that went through the data L1 leaves its line there; any other drops the
core's copy of the line (03 R74, 06 R140); one of the host window holds its line (20 R354). -/
def State.afterRead (s : State) (through : Bool) (since home : Nat) : State :=
  { s with mem := (if through then s.mem.loadLine s.me.core since s.time home else s.mem.dropOwn s.me.core home).holdHost false home }

/-- Read n bytes at a translated place: empty line, poison, data L1 (03 R72, R73, 06 R140). `l1` says that the data L1 may serve the
read; one that depends on an earlier load takes no older line (11 R249). -/
def State.readAt (s : State) (x : Xlat) (l1 : Bool) (n : Nat) : Got × State :=
  match x.place with
  | .near h =>
    if s.mem.isEmptyAt h n then (.empty, s)
    else if (s.mem.poisonAt h n).isSome then (.poisoned, s)
    else
      let through := x.cached && l1
      (.bytes (s.mem.seenBytes (if through then some (s.me.core, s.me.need) else none) h n), s.afterRead through s.me.need h)
  | .cap o => (.bytes (s.capBytes o n), s)
  | .far pkg addr => s.readFar pkg addr n

/-- Perform a write of the thread in focus at a translated place, or send it to its owner (21 R381, R385). -/
def State.writeAt (s : State) (x : Xlat) (bs : List Byte) : State :=
  match x.place with
  | .near h => { s with mem := s.mem.perform (some s.me.tid) (some s.me.core) (wholeBytes h bs) }
  | .cap _ => s
  | .far pkg addr => s.sendMine pkg (fun c => .write s.me.tid s.me.ep c (wholeBytes addr bs) [])

/-- Checks of 03 R72 on a scalar access: alignment, translation, permission. -/
def State.checkAccess (s : State) (acc : Acc) (ea : Word) (size : Nat) : Except Bad Xlat :=
  if ea.toNat % size ≠ 0 then .error ⟨cMisaligned, detailOf acc (s.peekRemote s.env ea)⟩
  else
    match s.translate s.env acc none ea with
    | .error b => .error b
    | .ok x =>
      match x.place with
      | .far pkg _ => if s.reaches pkg then .ok x else .error ⟨cAccess, detailOf acc true⟩
      | _ => .ok x

/-- A scalar load of n bytes (03 R71 to R73): traps precise and in the order of R72; an empty line or an outstanding remote load
holds the thread at the instruction. `conv` extends the bytes. -/
def scalarLoad (s : State) (d : XReg) (ea : Word) (n : Nat) (conv : Nat → Word) : Out :=
  match s.checkAccess .load ea n with
  | .error b => trapA s b.code b.detail ea
  | .ok x =>
    match s.readAt x true n with
    | (.bytes l, s') => finish (s'.hit none ea) d (conv (leNat l))
    | (.empty, s') => stall s'
    | (.poisoned, s') => trapA s' cPoison 0 (ea &&& ~~~7)
    | (.denied b, s') => trapA s' b.code b.detail ea
    | (.lost pkg, s') => trapA s' cPeerLost (BitVec.ofNat 12 pkg) ea
    | (.later, s') => stall s'

/-- A scalar store of the low n bytes of a value (03 R71 to R73). -/
def scalarStore (s : State) (ea : Word) (n : Nat) (v : Word) : Out :=
  match s.checkAccess .store ea n with
  | .error b => trapA s b.code b.detail ea
  | .ok x => .next ((s.writeAt x (leBytes n v.toNat)).hit none ea).bump

/-- A read-modify-write at the home (03 R72, R77 to R79): not on a remote page; the data L1 does not supply the value and every
L1 copy of the line is dropped. `f old` answers the new value, or none where nothing is written; `ret` what xD receives. -/
def scalarAtomic (s : State) (d : XReg) (ea : Word) (n : Nat) (f : Nat → Option Nat) (ret : Nat → Word) : Out :=
  match s.checkAccess .atomic ea n with
  | .error b => trapA s b.code b.detail ea
  | .ok x =>
    match x.place with
    | .near h =>
      if s.mem.isEmptyAt h n then stall s
      else if (s.mem.poisonAt h n).isSome then trapA s cPoison 0 (ea &&& ~~~7)
      else
        let old := s.mem.number h n
        let m := match f old with
          | some v => s.mem.perform (some s.me.tid) none (wholeBytes h (leBytes n v))
          | none => s.mem.holdHost true h
        finish (({ s with mem := m.dropLines [h / 128] } : State).hit none ea) d (ret old)
    | .cap _ => trapA s cAccess (detailOf .atomic false) ea
    | .far _ _ => trapA s cAccess (detailOf .atomic true) ea

/-- Run something with another thread in focus, then put the focus back. A thread that does not exist changes nothing. -/
def State.withFocus (s : State) (tid : Nat) (f : State → State) : State :=
  if s.me.tid = tid then f s
  else
    match s.others.find? (fun t => t.tid == tid) with
    | none => s
    | some t =>
      let mine := s.me.tid
      let s' := f { s with me := t, others := s.others.map (fun o => if o.tid == tid then s.me else o) }
      match s'.others.find? (fun o => o.tid == mine) with
      | none => s'
      | some back => { s' with me := back, others := s'.others.map (fun o => if o.tid == mine then s'.me else o) }

end Sys2Proof.Machine
end

