-- ==== Sys2Proof/Machine/Issue.lean ====
section
/-!
DEFINITION. When a word may issue (01 R20, R21, R27; 03 R91): the x registers an instruction names, and room in the queues.
-/
namespace Sys2Proof.Machine

/-- The x register of a second source, where it is one. -/
def srcX : VSrc → List XReg
  | .vec _ => []
  | .scalar r => [r]

/-- x registers a slot reads or writes (02 R43). -/
def slotX (p : Slot) : List XReg :=
  match p.pop with
  | .li => [p.d]
  | .vaddF32x | .vmulF32x => [p.b]
  | .vldF32 | .vstF32 => [p.a]
  | .addImm | .andImm | .orImm | .xorImm | .sllImm | .srlImm | .sraImm | .ldI64 | .ldI32 | .ldN32 | .st64 | .st32 => [p.d, p.a]
  | _ => if p.pop.isE then [] else [p.d, p.a, p.b]

/-- Every x register an instruction reads or writes: it waits while one of them is pending (01 R21, 03 R91). -/
def xregs : Instr → List XReg
  | .add d a b => [d, a, b]
  | .addImm d a _ => [d, a]
  | .addImmLong d a _ => [d, a]
  | .sub d a b => [d, a, b]
  | .and d a b => [d, a, b]
  | .andImm d a _ => [d, a]
  | .andImmLong d a _ => [d, a]
  | .or d a b => [d, a, b]
  | .orImm d a _ => [d, a]
  | .orImmLong d a _ => [d, a]
  | .xor d a b => [d, a, b]
  | .xorImm d a _ => [d, a]
  | .xorImmLong d a _ => [d, a]
  | .andn d a b => [d, a, b]
  | .orn d a b => [d, a, b]
  | .xnor d a b => [d, a, b]
  | .sll d a b => [d, a, b]
  | .sllImm d a _ => [d, a]
  | .srl d a b => [d, a, b]
  | .srlImm d a _ => [d, a]
  | .sra d a b => [d, a, b]
  | .sraImm d a _ => [d, a]
  | .rol d a b => [d, a, b]
  | .rolImm d a _ => [d, a]
  | .ror d a b => [d, a, b]
  | .rorImm d a _ => [d, a]
  | .minI64 d a b => [d, a, b]
  | .minI64Imm d a _ => [d, a]
  | .maxI64 d a b => [d, a, b]
  | .maxI64Imm d a _ => [d, a]
  | .minN64 d a b => [d, a, b]
  | .minN64Imm d a _ => [d, a]
  | .maxN64 d a b => [d, a, b]
  | .maxN64Imm d a _ => [d, a]
  | .sltI64 d a b => [d, a, b]
  | .sltI64Imm d a _ => [d, a]
  | .sltN64 d a b => [d, a, b]
  | .sltN64Imm d a _ => [d, a]
  | .seq d a b => [d, a, b]
  | .seqImm d a _ => [d, a]
  | .add32 d a b => [d, a, b]
  | .add32Imm d a _ => [d, a]
  | .sub32 d a b => [d, a, b]
  | .sll32 d a b => [d, a, b]
  | .sll32Imm d a _ => [d, a]
  | .srl32 d a b => [d, a, b]
  | .srl32Imm d a _ => [d, a]
  | .sra32 d a b => [d, a, b]
  | .sra32Imm d a _ => [d, a]
  | .mul d a b => [d, a, b]
  | .mulhI64 d a b => [d, a, b]
  | .mulhN64 d a b => [d, a, b]
  | .mul32 d a b => [d, a, b]
  | .divI64 d a b => [d, a, b]
  | .divN64 d a b => [d, a, b]
  | .remI64 d a b => [d, a, b]
  | .remN64 d a b => [d, a, b]
  | .clz d a => [d, a]
  | .ctz d a => [d, a]
  | .popc d a => [d, a]
  | .rev8 d a => [d, a]
  | .brev d a => [d, a]
  | .sext8 d a => [d, a]
  | .sext16 d a => [d, a]
  | .sext32 d a => [d, a]
  | .zext8 d a => [d, a]
  | .zext16 d a => [d, a]
  | .zext32 d a => [d, a]
  | .sel d a b c => [d, a, b, c]
  | .madd d a b c => [d, a, b, c]
  | .li d _ => [d]
  | .liLong d _ => [d]
  | .lih d _ => [d]
  | .lpc d _ => [d]
  | .lpcLong d _ => [d]
  | .faddF64 _ d a b => [d, a, b]
  | .faddF32 _ d a b => [d, a, b]
  | .fsubF64 _ d a b => [d, a, b]
  | .fsubF32 _ d a b => [d, a, b]
  | .fmulF64 _ d a b => [d, a, b]
  | .fmulF32 _ d a b => [d, a, b]
  | .fdivF64 _ d a b => [d, a, b]
  | .fdivF32 _ d a b => [d, a, b]
  | .fsqrtF64 _ d a => [d, a]
  | .fsqrtF32 _ d a => [d, a]
  | .fmaF64 _ d a b c => [d, a, b, c]
  | .fmaF32 _ d a b c => [d, a, b, c]
  | .fminF64 d a b => [d, a, b]
  | .fminF32 d a b => [d, a, b]
  | .fmaxF64 d a b => [d, a, b]
  | .fmaxF32 d a b => [d, a, b]
  | .feqF64 d a b => [d, a, b]
  | .feqF32 d a b => [d, a, b]
  | .fltF64 d a b => [d, a, b]
  | .fltF32 d a b => [d, a, b]
  | .fleF64 d a b => [d, a, b]
  | .fleF32 d a b => [d, a, b]
  | .fclassF64 d a => [d, a]
  | .fclassF32 d a => [d, a]
  | .fsgnF64 d a b => [d, a, b]
  | .fsgnF32 d a b => [d, a, b]
  | .fsgnnF64 d a b => [d, a, b]
  | .fsgnnF32 d a b => [d, a, b]
  | .fsgnxF64 d a b => [d, a, b]
  | .fsgnxF32 d a b => [d, a, b]
  | .fcvtF32F64 _ d a => [d, a]
  | .fcvtF64F32 _ d a => [d, a]
  | .fcvtF64I64 _ d a => [d, a]
  | .fcvtF64N64 _ d a => [d, a]
  | .fcvtF32I64 _ d a => [d, a]
  | .fcvtF32N64 _ d a => [d, a]
  | .fcvtI64F64 _ d a => [d, a]
  | .fcvtN64F64 _ d a => [d, a]
  | .fcvtI64F32 _ d a => [d, a]
  | .fcvtN64F32 _ d a => [d, a]
  | .ldI8 d a _ => [d, a]
  | .ldI8Long d a _ => [d, a]
  | .ldN8 d a _ => [d, a]
  | .ldN8Long d a _ => [d, a]
  | .ldI16 d a _ => [d, a]
  | .ldI16Long d a _ => [d, a]
  | .ldN16 d a _ => [d, a]
  | .ldN16Long d a _ => [d, a]
  | .ldI32 d a _ => [d, a]
  | .ldI32Long d a _ => [d, a]
  | .ldN32 d a _ => [d, a]
  | .ldN32Long d a _ => [d, a]
  | .ldI64 d a _ => [d, a]
  | .ldI64Long d a _ => [d, a]
  | .st8 d a _ => [d, a]
  | .st8Long d a _ => [d, a]
  | .st16 d a _ => [d, a]
  | .st16Long d a _ => [d, a]
  | .st32 d a _ => [d, a]
  | .st32Long d a _ => [d, a]
  | .st64 d a _ => [d, a]
  | .st64Long d a _ => [d, a]
  | .ldAcq _ d a _ => [d, a]
  | .ldAcqN32 _ d a _ => [d, a]
  | .stRel _ d a _ => [d, a]
  | .stRel32 _ d a _ => [d, a]
  | .amoSwap _ d a b _ => [d, a, b]
  | .amoAdd _ d a b _ => [d, a, b]
  | .amoAnd _ d a b _ => [d, a, b]
  | .amoOr _ d a b _ => [d, a, b]
  | .amoXor _ d a b _ => [d, a, b]
  | .amoMinI _ d a b _ => [d, a, b]
  | .amoMaxI _ d a b _ => [d, a, b]
  | .amoMinN _ d a b _ => [d, a, b]
  | .amoMaxN _ d a b _ => [d, a, b]
  | .cas64 d a b c _ => [d, a, b, c]
  | .cas32 d a b c _ => [d, a, b, c]
  | .prefd a _ => [a]
  | .prefi a _ => [a]
  | .beq a b _ => [a, b]
  | .bne a b _ => [a, b]
  | .bltI64 a b _ => [a, b]
  | .bgeI64 a b _ => [a, b]
  | .bltN64 a b _ => [a, b]
  | .bgeN64 a b _ => [a, b]
  | .jal d _ => [d]
  | .jalLong d _ => [d]
  | .jalr d a _ => [d, a]
  | .settypeImm d _ => [d]
  | .settypeReg d a => [d, a]
  | .setvlReg d a => [d, a]
  | .setvlImm d _ => [d]
  | .setvlStream d a _ => [d, a]
  | .setshapeReg d a b => [d, a, b]
  | .setshapeImm d _ _ => [d]
  | .csrr d _ => [d]
  | .csrw _ a => [a]
  | .csrrw d _ a => [d, a]
  | .csrs d _ a => [d, a]
  | .csrc d _ a => [d, a]
  | .vsave d a => [d, a]
  | .vrest a => [a]
  | .launch d a _ => [d, a]
  | .join d a => [d, a]
  | .leave d => [d]
  | .exit a => [a]
  | .hafn a => [a]
  | .lend d a => [d, a]
  | .byinit d a b _ => [d, a, b]
  | .byarrive d a _ => [d, a]
  | .bywait d a b c _ => [d, a, b, c]
  | .fencePd _ d _ _ => [d]
  | .waitaddr d a b c _ => [d, a, b, c]
  | .waitaddr32 d a b c _ => [d, a, b, c]
  | .cewait d a c => [d, a, c]
  | .lnempty a b _ => [a, b]
  | .welt d a _ => [d, a]
  | .bcnopen d a => [d, a]
  | .beacon d a b _ _ => [d, a, b]
  | .bcnclose d _ => [d]
  | .cbkld a _ => [a]
  | .vaddFp _ _ _ _ _ b => srcX b
  | .vsubFp _ _ _ _ _ b => srcX b
  | .vmulFp _ _ _ _ _ b => srcX b
  | .vdiv _ _ _ _ _ b => srcX b
  | .vfma _ _ _ _ _ b => srcX b
  | .vfnma _ _ _ _ _ b => srcX b
  | .vminFp _ _ _ _ _ b => srcX b
  | .vmaxFp _ _ _ _ _ b => srcX b
  | .vcmpFp _ _ _ _ _ b => srcX b
  | .vsgn _ _ _ _ b => srcX b
  | .vsgnn _ _ _ _ b => srcX b
  | .vsgnx _ _ _ _ b => srcX b
  | .vaddInt _ _ _ _ b => srcX b
  | .vsubInt _ _ _ _ b => srcX b
  | .vaddSat _ _ _ _ b => srcX b
  | .vsubSat _ _ _ _ b => srcX b
  | .vmulInt _ _ _ _ b => srcX b
  | .vmulh _ _ _ _ b => srcX b
  | .vmadd _ _ _ _ b => srcX b
  | .vminInt _ _ _ _ b => srcX b
  | .vmaxInt _ _ _ _ b => srcX b
  | .vcmpInt _ _ _ _ _ b => srcX b
  | .vsll _ _ _ _ b => srcX b
  | .vsrl _ _ _ _ b => srcX b
  | .vsra _ _ _ _ b => srcX b
  | .vand _ _ _ b => srcX b
  | .vor _ _ _ b => srcX b
  | .vxor _ _ _ b => srcX b
  | .vbcast _ _ _ a => [a]
  | .vmvx _ d _ b => [d, b]
  | .vrngN32 _ _ a b => [a, b]
  | .vld _ _ _ a _ => [a]
  | .vst _ _ _ _ a _ => [a]
  | .vlds _ _ _ a b _ => [a, b]
  | .vsts _ _ _ _ a b _ => [a, b]
  | .vldx _ _ _ a _ _ _ => [a]
  | .vstx _ _ _ _ a _ _ _ => [a]
  | .vgath _ _ _ a _ _ _ => [a]
  | .vscat _ _ _ a _ _ _ => [a]
  | .vscadd _ _ _ a _ _ _ => [a]
  | .sopen _ a _ => [a]
  | .sadv _ a => [a]
  | .stend d _ => [d]
  | .fopen _ a _ => [a]
  | .ftend d _ => [d]
  | .vgamRd d _ => [d]
  | .vgamWr _ a => [a]
  | .vred _ _ _ d _ b => [d, b]
  | .vscan _ _ _ _ _ _ b => [b]
  | .vslideUp _ _ _ b => [b]
  | .vslideDn _ _ _ b => [b]
  | .kpopc d _ => [d]
  | .kfirst d _ => [d]
  | .plpack _ _ _ _ _ a _ c => [a, c]
  | .plunpk _ _ _ a c => [a, c]
  | .mma _ _ _ _ a b c => [a, b, c]
  | .mld _ a b _ => [a, b]
  | .mst _ a b _ => [a, b]
  | .rred _ _ a b _ => [a, b]
  | .rwset d _ a b => [d, a, b]
  | .fmap a b => [a, b]
  | .pairWord s0 s1 => slotX s0 ++ slotX s1
  | .cegoRead d => [d]
  | .fcsrAccess _ d a => [d, a]
  | .vstartAccess _ d a => [d, a]
  | _ => []

/-- Whether an instruction enters `cmd`, and whether it reserves a value (01 R19 to R21). -/
def needsCmd : Instr → Bool
  | .vaddFp _ _ _ _ _ _ => true
  | .vsubFp _ _ _ _ _ _ => true
  | .vmulFp _ _ _ _ _ _ => true
  | .vdiv _ _ _ _ _ _ => true
  | .vsqrt _ _ _ _ _ => true
  | .vfma _ _ _ _ _ _ => true
  | .vfnma _ _ _ _ _ _ => true
  | .vminFp _ _ _ _ _ _ => true
  | .vmaxFp _ _ _ _ _ _ => true
  | .vcmpFp _ _ _ _ _ _ => true
  | .vsgn _ _ _ _ _ => true
  | .vsgnn _ _ _ _ _ => true
  | .vsgnx _ _ _ _ _ => true
  | .vscl _ _ _ _ _ _ => true
  | .vaddInt _ _ _ _ _ => true
  | .vsubInt _ _ _ _ _ => true
  | .vaddSat _ _ _ _ _ => true
  | .vsubSat _ _ _ _ _ => true
  | .vmulInt _ _ _ _ _ => true
  | .vmulh _ _ _ _ _ => true
  | .vmadd _ _ _ _ _ => true
  | .vminInt _ _ _ _ _ => true
  | .vmaxInt _ _ _ _ _ => true
  | .vcmpInt _ _ _ _ _ _ => true
  | .vsll _ _ _ _ _ => true
  | .vsrl _ _ _ _ _ => true
  | .vsra _ _ _ _ _ => true
  | .vid _ _ _ => true
  | .vand _ _ _ _ => true
  | .vor _ _ _ _ => true
  | .vxor _ _ _ _ => true
  | .vmv _ _ _ => true
  | .kand _ _ _ => true
  | .kor _ _ _ => true
  | .kxor _ _ _ => true
  | .kandn _ _ _ => true
  | .knot _ _ => true
  | .kset _ => true
  | .vbcast _ _ _ _ => true
  | .vmvx _ _ _ _ => true
  | .vcvt _ _ _ _ _ _ _ => true
  | .vsegmax _ _ _ _ => true
  | .vsalsel _ _ _ _ _ _ => true
  | .vrngN32 _ _ _ _ => true
  | .vld _ _ _ _ _ => true
  | .vst _ _ _ _ _ _ => true
  | .vlds _ _ _ _ _ _ => true
  | .vsts _ _ _ _ _ _ _ => true
  | .vldx _ _ _ _ _ _ _ => true
  | .vstx _ _ _ _ _ _ _ _ => true
  | .vgath _ _ _ _ _ _ _ => true
  | .vscat _ _ _ _ _ _ _ => true
  | .vscadd _ _ _ _ _ _ _ => true
  | .sopen _ _ _ => true
  | .sadv _ _ => true
  | .stend _ _ => true
  | .sclose _ => true
  | .fopen _ _ _ => true
  | .fadv _ => true
  | .ftend _ _ => true
  | .fclose _ => true
  | .vgamRd _ _ => true
  | .vgamWr _ _ => true
  | .vred _ _ _ _ _ _ => true
  | .vscan _ _ _ _ _ _ _ => true
  | .vperm _ _ _ _ => true
  | .vslideUp _ _ _ _ => true
  | .vslideDn _ _ _ _ => true
  | .vcompress _ _ _ => true
  | .kpopc _ _ => true
  | .kfirst _ _ => true
  | .plpack _ _ _ _ _ _ _ _ => true
  | .plunpk _ _ _ _ _ => true
  | .mma _ _ _ _ _ _ _ => true
  | .mzero _ => true
  | .mld _ _ _ _ => true
  | .mst _ _ _ _ => true
  | .cbkld _ _ => true
  | .pairWord _ s1 => s1.pop.isE
  | _ => false

def needsValue : Instr → Bool
  | .vmvx _ _ _ _ => true
  | .stend _ _ => true
  | .ftend _ _ => true
  | .vgamRd _ _ => true
  | .vred _ _ _ _ _ _ => true
  | .kpopc _ _ => true
  | .kfirst _ _ => true
  | _ => false

/-- x registers that the access processor writes when it performs an instruction. -/
def writesX : Instr → List XReg
  | .st8 _ _ _ | .st8Long _ _ _ | .st16 _ _ _ | .st16Long _ _ _ | .st32 _ _ _ | .st32Long _ _ _ | .st64 _ _ _ | .st64Long _ _ _ => []
  | .stRel _ _ _ _ | .stRel32 _ _ _ _ | .prefd _ _ | .prefi _ _ => []
  | .beq _ _ _ | .bne _ _ _ | .bltI64 _ _ _ | .bgeI64 _ _ _ | .bltN64 _ _ _ | .bgeN64 _ _ _ => []
  | .csrw _ _ | .vrest _ | .exit _ | .hafn _ | .lnempty _ _ _ | .cbkld _ _ | .rred _ _ _ _ _ | .fmap _ _ => []
  | .pairWord s0 s1 => s0.xDest.toList ++ s1.xDest.toList
  | i => if needsCmd i then [] else (xregs i).take 1

/-- Whether the value of a slot comes from memory. -/
def slotLoads (p : Slot) : Bool := match p.pop with | .ldI64 | .ldI32 | .ldN32 => true | _ => false

/-- Whether the value that an instruction returns comes from memory, as the dependences of 11 R249 count it. -/
def loadsX : Instr → Bool
  | .ldI8 _ _ _ | .ldI8Long _ _ _ | .ldN8 _ _ _ | .ldN8Long _ _ _ | .ldI16 _ _ _ | .ldI16Long _ _ _ | .ldN16 _ _ _ | .ldN16Long _ _ _ => true
  | .ldI32 _ _ _ | .ldI32Long _ _ _ | .ldN32 _ _ _ | .ldN32Long _ _ _ | .ldI64 _ _ _ | .ldI64Long _ _ _ => true
  | .ldAcq _ _ _ _ | .ldAcqN32 _ _ _ _ | .cas64 _ _ _ _ _ | .cas32 _ _ _ _ _ => true
  | .amoSwap _ _ _ _ _ | .amoAdd _ _ _ _ _ | .amoAnd _ _ _ _ _ | .amoOr _ _ _ _ _ | .amoXor _ _ _ _ _ => true
  | .amoMinI _ _ _ _ _ | .amoMaxI _ _ _ _ _ | .amoMinN _ _ _ _ _ | .amoMaxN _ _ _ _ _ => true
  | .waitaddr _ _ _ _ _ | .waitaddr32 _ _ _ _ _ | .bywait _ _ _ _ _ | .byarrive _ _ _ => true
  | .pairWord s0 s1 => slotLoads s0 || slotLoads s1
  | _ => false

/-- The youngest load that the registers of an instruction depend on (11 R249). -/
def Thread.needOf (t : Thread) (i : Instr) : Nat :=
  (xregs i).foldl (fun m r => max m (t.dep[r.toNat]'(by have := r.isLt; omega))) 0

/-- What the registers depend on once an instruction has been performed at a time (11 R249). -/
def Thread.depend (t : Thread) (i : Instr) (now : Nat) : Thread :=
  let n := if loadsX i then now else t.needOf i
  { t with
    need := t.needOf i
    dep := (writesX i).foldl (fun v r => v.set r.toNat (if r = 0 then 0 else n) (by have := r.isLt; omega)) t.dep }

/-- The instruction of a word may issue (01 R27): no register it names is pending, and the queues it needs have room: 128 words in cmd
(01 R20), at most 176 entries in a window, as many as cmd and the lane queues of a context hold (04 R107). While a trap holds the window nothing
enters a queue: an E-class instruction traps (R104). -/
def Thread.issuable (t : Thread) (i : Instr) : Bool :=
  (xregs i).all (fun r => !t.pending r)
    && (!needsCmd i || t.held || decide ((t.win.filter (fun e => !e.queued)).length < 128 ∧ t.win.length < 176))
    && (!needsValue i || t.held || decide (t.valuesReserved < 32))

end Sys2Proof.Machine
end

