-- ==== Sys2Proof/Machine/Float.lean ====
section
/-!
DEFINITION. Floating-point values, rounding and arithmetic (03 R64 to R69, 07 R145 to R157). Arithmetic is exact; `roundFmt`
rounds once.
-/
namespace Sys2Proof.Machine

/-- Rounding modes, in the codes of FCSR.RM (01 R17). -/
inductive Mode where
  | rne | rtz | rup | rdn
  deriving DecidableEq, Repr

def Mode.ofRm (rm : BitVec 2) : Mode :=
  match rm.toNat with
  | 0 => .rne | 1 => .rtz | 2 => .rup | _ => .rdn

/-- The rounding of an RMS selector (03 R64). -/
def Thread.mode (t : Thread) : Rms → Mode
  | .dyn => Mode.ofRm t.rm
  | .rne => .rne
  | .rtz => .rtz
  | .rup => .rup
  | .rdn => .rdn

/-- A decoded value: a NaN (signalling or quiet), an infinity, or the exact value (-1)^neg * m * 2^e. -/
inductive FVal where
  | nan (sig : Bool)
  | inf (neg : Bool)
  | fin (neg : Bool) (m : Nat) (e : Int)
  deriving DecidableEq, Repr

/-- An IEEE interchange format: exponent and fraction bits (07 R145). -/
structure Ieee where
  eb : Nat
  mb : Nat
  deriving DecidableEq, Repr

def fp64 : Ieee := ⟨11, 52⟩
def fp32 : Ieee := ⟨8, 23⟩
def fp16 : Ieee := ⟨5, 10⟩
def bf16 : Ieee := ⟨8, 7⟩

def Ieee.bias (f : Ieee) : Nat := 2 ^ (f.eb - 1) - 1
/-- Exponent of the smallest normal. -/
def Ieee.emin (f : Ieee) : Int := 1 - (f.bias : Int)
def Ieee.signBit (f : Ieee) : Nat := 2 ^ (f.eb + f.mb)
def Ieee.infBits (f : Ieee) : Nat := (2 ^ f.eb - 1) * 2 ^ f.mb
/-- The canonical quiet NaN (07 R145, R146). -/
def Ieee.nanBits (f : Ieee) : Nat := f.infBits + 2 ^ (f.mb - 1)

def withSign (f : Ieee) (neg : Bool) (mag : Nat) : Nat := if neg then mag + f.signBit else mag

/-- Decode an IEEE value. -/
def Ieee.decode (f : Ieee) (bits : Nat) : FVal :=
  let neg := bits / f.signBit % 2 == 1
  let ex := bits / 2 ^ f.mb % 2 ^ f.eb
  let fr := bits % 2 ^ f.mb
  if ex = 2 ^ f.eb - 1 then (if fr = 0 then .inf neg else .nan (fr / 2 ^ (f.mb - 1) == 0))
  else if ex = 0 then .fin neg fr (f.emin - f.mb)
  else .fin neg (2 ^ f.mb + fr) ((ex : Int) - f.bias - f.mb)

/-- Shift right by d, rounding by mode: the rounded quotient and whether it is inexact. -/
def roundShift (mode : Mode) (neg : Bool) (m d : Nat) : Nat × Bool :=
  let q := m / 2 ^ d
  let r := m % 2 ^ d
  let up := match mode with
    | .rne => decide (2 ^ d < 2 * r) || (decide (2 * r = 2 ^ d) && q % 2 == 1 && d != 0)
    | .rtz => false
    | .rup => r != 0 && !neg
    | .rdn => r != 0 && neg
  (if up then q + 1 else q, r != 0)

/-- m * 2^e in units of 2^q, rounded. -/
def roundUnits (mode : Mode) (neg : Bool) (m : Nat) (e q : Int) : Nat × Bool :=
  if q ≤ e then (m * 2 ^ (e - q).toNat, false) else roundShift mode neg m (q - e).toNat

/-- Bits of a rounded result and the flags it raises. -/
structure Rounded where
  bits : Nat
  flags : Flags
  deriving DecidableEq, Repr

def noFlags (bits : Nat) : Rounded := ⟨bits, Flags.none⟩

/-- IEEE rounding of a finite value (03 R66, R67; 07 R147, R157): tininess is detected after rounding; with fz a subnormal result
becomes zero with UF and NX. -/
def Ieee.round (f : Ieee) (mode : Mode) (fz neg : Bool) (m : Nat) (e : Int) : Rounded :=
  if m = 0 then noFlags (withSign f neg 0)
  else
    let top : Int := (Nat.log2 m : Int) + e
    let q := (if top < f.emin then f.emin else top) - f.mb
    let (r, inexact) := roundUnits mode neg m e q
    let mag := (q - (f.emin - f.mb)).toNat * 2 ^ f.mb + r
    if f.infBits ≤ mag then
      let toInf := match mode with
        | .rne => true
        | .rtz => false
        | .rup => !neg
        | .rdn => neg
      ⟨withSign f neg (if toInf then f.infBits else f.infBits - 1), flagOv⟩
    else
      let tiny := decide (top < f.emin) && decide ((roundUnits mode neg m e (top - f.mb)).1 < 2 ^ (f.mb + 1) ∨ top < f.emin - 1)
      if fz && mag != 0 && decide (mag < 2 ^ f.mb) then ⟨withSign f neg 0, flagUx⟩
      else ⟨withSign f neg mag, { Flags.none with nx := inexact, uf := inexact && tiny }⟩

/-- Magnitude of a T8 or T6 code (n bits, without sign) in units of 2^-12 (07 R149). -/
def tapMag (n m : Nat) : Nat :=
  if m = 0 then 0
  else
    let b := m / 2 ^ (n - 2) % 2
    let k := leadingZeros (if b = 1 then 2 ^ (n - 1) - 1 - m else m) (n - 1)
    let left := n - 2 - k
    let rest := if k < n - 2 then m % 2 ^ left else 0
    let eBit := if k < n - 2 then rest / 2 ^ (left - 1) else 0
    let frac := if k < n - 2 then rest % 2 ^ (left - 1) else 0
    let fb := if k < n - 2 then left - 1 else 0
    let ex := (if b = 1 then 12 + 2 * (k - 1) else 12 - 2 * k) + eBit
    2 ^ ex + frac * 2 ^ (ex - fb)

/-- Magnitudes of F4 in units of 0.5 (07 R153). -/
def f4Mag (m : Nat) : Nat := [0, 1, 2, 3, 4, 6, 8, 12].getD m 0

/-- decode_tap (07 R149): NaR reads as a quiet NaN. -/
def tapDecode (n c : Nat) : FVal :=
  let m := c % 2 ^ (n - 1)
  let neg := c / 2 ^ (n - 1) % 2 == 1
  if m = 0 then (if neg then .nan false else .fin false 0 0) else .fin neg (tapMag n m) (-12)

def f4Decode (c : Nat) : FVal := .fin (c / 8 % 2 == 1) (f4Mag (c % 8)) (-1)

/-- The largest code below `count` whose magnitude, times scale, is at most x; magnitudes rise with the code. -/
def floorCode (mag : Nat → Nat) (scale x : Nat) : Nat → Nat
  | 0 => 0
  | n + 1 => if mag n * scale ≤ x then n else floorCode mag scale x n

/-- Rounding among a table of magnitudes in units of 2^-u (07 R152, R154): code of the magnitude, whether it is inexact, whether
|x| lies above the largest, whether below the threshold `small` given in the same units. -/
def tableRound (mag : Nat → Nat) (count u small : Nat) (mode : Mode) (neg : Bool) (m : Nat) (e : Int) :
    Nat × Bool × Bool × Bool :=
  let sh : Int := e + u
  let x := if 0 ≤ sh then m * 2 ^ sh.toNat else m
  let scale := if 0 ≤ sh then 1 else 2 ^ (-sh).toNat
  if mag (count - 1) * scale < x then (count - 1, true, true, false)
  else
    let a := floorCode mag scale x count
    let lo := mag a * scale
    let inexact := lo != x
    let hi := mag (a + 1) * scale
    let up := inexact && (match mode with
      | .rne => decide (hi - x < x - lo) || (decide (hi - x = x - lo) && a % 2 == 1)
      | .rtz => false
      | .rup => !neg
      | .rdn => neg)
    (if up then a + 1 else a, inexact, false, decide (x < small * scale))

/-- The finite case of encode_tap (07 R152). -/
def tapRound (n : Nat) (mode : Mode) (neg : Bool) (m : Nat) (e : Int) : Rounded :=
  if m = 0 then noFlags 0
  else
    let (c, inexact, above, small) := tableRound (tapMag n) (2 ^ (n - 1)) 12 (tapMag n 1) mode neg m e
    let bits := if c = 0 then 0 else if neg then c + 2 ^ (n - 1) else c
    if above then ⟨bits, flagOv⟩ else ⟨bits, { Flags.none with nx := inexact, uf := inexact && small }⟩

/-- The finite case of encode_f4 (07 R154, R157). -/
def f4Round (mode : Mode) (fz neg : Bool) (m : Nat) (e : Int) : Rounded :=
  let sign := if neg then 8 else 0
  if m = 0 then noFlags sign
  else
    let (c, inexact, above, small) := tableRound f4Mag 8 1 2 mode neg m e
    if above then ⟨7 + sign, flagOv⟩
    else if fz && c == 1 then ⟨sign, flagUx⟩
    else ⟨c + sign, { Flags.none with nx := inexact, uf := inexact && small }⟩

/-- The IEEE layout of a format that has one; T8, T6, F4 and K4 decode to FP32 (07 R149, R155). -/
def layoutOf : Fmt → Ieee
  | .fp64 => fp64
  | .fp16 => fp16
  | .bf16 => bf16
  | _ => fp32

/-- Decode an element of a floating format (07 R145 to R155); K4 reads the codebook. -/
def decodeFmt (cb : Vector (BitVec 32) 16) (f : Fmt) (bits : Nat) : FVal :=
  match f with
  | .t8 => tapDecode 8 (bits % 256)
  | .t6 => tapDecode 6 (bits % 64)
  | .f4 => f4Decode (bits % 16)
  | .k4 => fp32.decode ((cb[bits % 16]'(by omega)).toNat)
  | _ => (layoutOf f).decode bits

/-- round_fmt (07 R147) with the flushing of results (R157). Formats without a rounding (K4, integers) are not destinations. -/
def roundFmt (f : Fmt) (mode : Mode) (fz : Bool) (v : FVal) : Rounded :=
  match f, v with
  | .t8, .fin neg m e => tapRound 8 mode neg m e
  | .t8, .inf _ => ⟨0x80, flagNv⟩
  | .t8, .nan sig => ⟨0x80, { Flags.none with nv := sig }⟩
  | .t6, .fin neg m e => tapRound 6 mode neg m e
  | .t6, .inf _ => ⟨0x20, flagNv⟩
  | .t6, .nan sig => ⟨0x20, { Flags.none with nv := sig }⟩
  | .f4, .fin neg m e => f4Round mode fz neg m e
  | .f4, .inf neg => ⟨if neg then 15 else 7, flagNv⟩
  | .f4, .nan _ => ⟨0, flagNv⟩
  | f, .fin neg m e => (layoutOf f).round mode fz neg m e
  | f, .inf neg => noFlags (withSign (layoutOf f) neg (layoutOf f).infBits)
  | f, .nan sig => ⟨(layoutOf f).nanBits, { Flags.none with nv := sig }⟩

/-- Whether a finite value is a non-zero subnormal of a layout. -/
def FVal.subnormal (f : Ieee) : FVal → Bool
  | .fin _ m e => m != 0 && decide ((Nat.log2 m : Int) + e < f.emin)
  | _ => false

/-- Operand flushing (03 R67, 07 R157). -/
def FVal.flush (f : Ieee) (fz : Bool) (v : FVal) : FVal :=
  if fz && v.subnormal f then (match v with | .fin neg _ _ => .fin neg 0 0 | w => w) else v

/-- A value and the flags of computing it, before rounding. -/
abbrev Exact := FVal × Flags

def FVal.isNan : FVal → Bool
  | .nan _ => true
  | _ => false

def FVal.isSnan : FVal → Bool
  | .nan sig => sig
  | _ => false

/-- The quiet NaN result of an operation with NaN operands: NV for a signalling one. -/
def quietNan (vs : List FVal) : Exact := (.nan false, { Flags.none with nv := vs.any FVal.isSnan })

def invalid : Exact := (.nan false, flagNv)

def signed (neg : Bool) (m : Nat) : Int := if neg then -(m : Int) else m

/-- Exact sum of finite values; the sign of an exact zero follows IEEE 754. -/
def addFin (mode : Mode) (n1 : Bool) (m1 : Nat) (e1 : Int) (n2 : Bool) (m2 : Nat) (e2 : Int) : FVal :=
  let e := if e1 < e2 then e1 else e2
  let t := signed n1 (m1 * 2 ^ (e1 - e).toNat) + signed n2 (m2 * 2 ^ (e2 - e).toNat)
  if t = 0 then .fin (if n1 = n2 ∧ m1 = 0 ∧ m2 = 0 then n1 else mode == .rdn) 0 0
  else .fin (decide (t < 0)) t.natAbs e

def fAdd (mode : Mode) (a b : FVal) : Exact :=
  match a, b with
  | .fin n1 m1 e1, .fin n2 m2 e2 => (addFin mode n1 m1 e1 n2 m2 e2, Flags.none)
  | .inf n1, .inf n2 => if n1 = n2 then (.inf n1, Flags.none) else invalid
  | .inf n1, .fin _ _ _ => (.inf n1, Flags.none)
  | .fin _ _ _, .inf n2 => (.inf n2, Flags.none)
  | a, b => quietNan [a, b]

def FVal.negate : FVal → FVal
  | .nan sig => .nan sig
  | .inf n => .inf (!n)
  | .fin n m e => .fin (!n) m e

def fSub (mode : Mode) (a b : FVal) : Exact := fAdd mode a b.negate

def fMul (a b : FVal) : Exact :=
  match a, b with
  | .fin n1 m1 e1, .fin n2 m2 e2 => (.fin (n1 != n2) (m1 * m2) (e1 + e2), Flags.none)
  | .inf n1, .inf n2 => (.inf (n1 != n2), Flags.none)
  | .inf n1, .fin n2 m2 _ => if m2 = 0 then invalid else (.inf (n1 != n2), Flags.none)
  | .fin n1 m1 _, .inf n2 => if m1 = 0 then invalid else (.inf (n1 != n2), Flags.none)
  | a, b => quietNan [a, b]

/-- a * b + c, exact (03 R65). 0 x infinity with a quiet NaN addend: log 9. -/
def fFma (mode : Mode) (a b c : FVal) : Exact :=
  if a.isNan || b.isNan then quietNan [a, b, c]
  else
    match fMul a b, c with
    | (.nan _, fl), .nan sig => (.nan false, { fl with nv := sig || Config.fmaQuietInvalid })
    | (.nan _, fl), _ => (.nan false, fl)
    | (p, _), c => fAdd mode p c

/-- Quotient with more than 64 significant bits and a sticky last bit, so that one rounding of it is that of the exact value. -/
def fDiv (a b : FVal) : Exact :=
  match a, b with
  | .fin n1 m1 e1, .fin n2 m2 e2 =>
    if m2 = 0 then (if m1 = 0 then invalid else (.inf (n1 != n2), flagDz))
    else
      let k := 70 + Nat.log2 m2
      let q := m1 * 2 ^ k / m2
      (.fin (n1 != n2) (2 * q + (if m1 * 2 ^ k % m2 = 0 then 0 else 1)) (e1 - e2 - k - 1), Flags.none)
  | .inf _, .inf _ => invalid
  | .inf n1, .fin n2 _ _ => (.inf (n1 != n2), Flags.none)
  | .fin n1 _ _, .inf n2 => (.fin (n1 != n2) 0 0, Flags.none)
  | a, b => quietNan [a, b]

/-- Integer square root by bits: the largest r below 2^n with r * r at most x, given the part found so far. -/
def rootBits (x acc : Nat) : Nat → Nat
  | 0 => acc
  | n + 1 => if (acc + 2 ^ n) * (acc + 2 ^ n) ≤ x then rootBits x (acc + 2 ^ n) n else rootBits x acc n

def fSqrt (a : FVal) : Exact :=
  match a with
  | .fin neg m e =>
    if m = 0 then (.fin neg 0 0, Flags.none)
    else if neg then invalid
    else
      let k : Nat := if e % 2 = 0 then 140 else 141
      let x := m * 2 ^ k
      let r := rootBits x 0 (Nat.log2 x / 2 + 1)
      (.fin false (2 * r + (if r * r = x then 0 else 1)) ((e - k) / 2 - 1), Flags.none)
  | .inf neg => if neg then invalid else (.inf false, Flags.none)
  | .nan sig => quietNan [.nan sig]

/-- Exact order of two values that are not NaNs: zeros are equal. -/
def fLess (a b : FVal) : Bool :=
  match a, b with
  | .inf n1, .inf n2 => n1 && !n2
  | .inf n1, .fin _ _ _ => n1
  | .fin _ _ _, .inf n2 => !n2
  | .fin n1 m1 e1, .fin n2 m2 e2 =>
    let e := if e1 < e2 then e1 else e2
    decide (signed n1 (m1 * 2 ^ (e1 - e).toNat) < signed n2 (m2 * 2 ^ (e2 - e).toNat))
  | _, _ => false

def fEqual (a b : FVal) : Bool := !a.isNan && !b.isNan && !fLess a b && !fLess b a

def FVal.neg : FVal → Bool
  | .nan _ => false
  | .inf n => n
  | .fin n _ _ => n

/-- minimumNumber and maximumNumber (03 R68): -0 below +0, a signalling NaN sets NV. -/
def fMinMax (wantMax : Bool) (a b : FVal) : Exact :=
  let fl := { Flags.none with nv := a.isSnan || b.isSnan }
  if a.isNan && b.isNan then (.nan false, fl)
  else if a.isNan then (b, fl)
  else if b.isNan then (a, fl)
  else
    let aLow := fLess a b || (!fLess b a && a.neg)
    (if aLow != wantMax then a else b, fl)

/-- Round a value to a natural magnitude by mode. -/
def toIntegral (mode : Mode) (neg : Bool) (m : Nat) (e : Int) : Nat × Bool := roundUnits mode neg m e 0

/-- Conversion to an integer of w bits (03 R69, 07 R156): NaN gives 0 with NV, out of range the nearest bound with NV. -/
def toInteger (w : Nat) (nat : Bool) (mode : Mode) (v : FVal) : Rounded :=
  let hi : Int := if nat then (2 ^ w : Nat) - 1 else (2 ^ (w - 1) : Nat) - 1
  let lo : Int := if nat then 0 else -((2 ^ (w - 1) : Nat) : Int)
  let put (i : Int) : Nat := (i % ((2 ^ w : Nat) : Int)).toNat
  match v with
  | .nan _ => ⟨0, flagNv⟩
  | .inf neg => ⟨put (if neg then lo else hi), flagNv⟩
  | .fin neg m e =>
    let (r, inexact) := toIntegral mode neg m e
    let i := signed neg r
    if i < lo then ⟨put lo, flagNv⟩
    else if hi < i then ⟨put hi, flagNv⟩
    else ⟨put i, { Flags.none with nx := inexact }⟩

/-- The value of an integer element (07 R144). -/
def integerOf (w : Nat) (nat : Bool) (bits : Nat) : Int :=
  if nat || bits % 2 ^ w < 2 ^ (w - 1) then (bits % 2 ^ w : Nat) else (bits % 2 ^ w : Nat) - (2 ^ w : Nat)

def FVal.ofInt (i : Int) : FVal := .fin (decide (i < 0)) i.natAbs 0

/-- One-hot class (03 R68). -/
def fClass (f : Ieee) (v : FVal) : Nat :=
  match v with
  | .nan sig => if sig then 8 else 9
  | .inf neg => if neg then 0 else 7
  | .fin neg m e =>
    if m = 0 then (if neg then 3 else 4)
    else if (FVal.fin neg m e).subnormal f then (if neg then 2 else 5)
    else if neg then 1 else 6

/-- Round an exact result and join the flags. -/
def rounded (f : Fmt) (mode : Mode) (fz : Bool) (x : Exact) : Rounded :=
  let r := roundFmt f mode fz x.1
  ⟨r.bits, r.flags.or x.2⟩

end Sys2Proof.Machine
end

