-- ==== Sys2Proof/Machine/Scalar.lean ====
section
/-!
DEFINITION. Integer and logic instructions (03 R57 to R63): one meaning for each, over the shared value functions.
-/
namespace Sys2Proof.Machine

/-- A 19-bit or 32-bit immediate, sign-extended (03 R57, R59). -/
def imm19 (i : Imm19) : Word := i.signExtend 64
def imm32 (i : Imm32) : Word := i.signExtend 64

def bool64 (b : Bool) : Word := if b then 1 else 0

/-- Rotation amounts are 0 to 63 (03 R58). -/
def rotl (a : Word) (n : Nat) : Word := (a <<< n) ||| (a >>> (64 - n))

/-- Values of the two-operand functions (03 R57, R58, R60). -/
def vSll (a b : Word) : Word := a <<< (b.toNat % 64)
def vSrl (a b : Word) : Word := a >>> (b.toNat % 64)
def vSra (a b : Word) : Word := a.sshiftRight (b.toNat % 64)
def vRol (a b : Word) : Word := rotl a (b.toNat % 64)
def vRor (a b : Word) : Word := rotl a ((64 - b.toNat % 64) % 64)
def vMinI (a b : Word) : Word := if a.toInt ≤ b.toInt then a else b
def vMaxI (a b : Word) : Word := if a.toInt ≤ b.toInt then b else a
def vMinN (a b : Word) : Word := if a.toNat ≤ b.toNat then a else b
def vMaxN (a b : Word) : Word := if a.toNat ≤ b.toNat then b else a
def vSltI (a b : Word) : Word := bool64 (decide (a.toInt < b.toInt))
def vSltN (a b : Word) : Word := bool64 (decide (a.toNat < b.toNat))
def vSeq (a b : Word) : Word := bool64 (a == b)
def vSll32 (a b : Word) : Word := (a.setWidth 32 <<< (b.toNat % 32)).signExtend 64
def vSrl32 (a b : Word) : Word := (a.setWidth 32 >>> (b.toNat % 32)).signExtend 64
def vSra32 (a b : Word) : Word := ((a.setWidth 32).sshiftRight (b.toNat % 32)).signExtend 64
def vMulhI (a b : Word) : Word := BitVec.ofInt 64 (a.toInt * b.toInt / 2 ^ 64)
def vMulhN (a b : Word) : Word := BitVec.ofNat 64 (a.toNat * b.toNat / 2 ^ 64)
/-- Division truncates toward zero; a zero divisor gives all ones, and -2^63 / -1 wraps (03 R60). -/
def vDivI (a b : Word) : Word := if b = 0 then BitVec.allOnes 64 else BitVec.ofInt 64 (a.toInt.tdiv b.toInt)
def vDivN (a b : Word) : Word := if b = 0 then BitVec.allOnes 64 else a / b
def vRemI (a b : Word) : Word := if b = 0 then a else BitVec.ofInt 64 (a.toInt.tmod b.toInt)
def vRemN (a b : Word) : Word := if b = 0 then a else a % b

/-- Values of the one-operand functions (03 R61). -/
def vClz (a : Word) : Word := BitVec.ofNat 64 (leadingZeros a.toNat 64)
def vCtz (a : Word) : Word := BitVec.ofNat 64 (trailingZeros a.toNat 0 64)
def vPopc (a : Word) : Word := BitVec.ofNat 64 (popCount a.toNat 64)
def vRev8 (a : Word) : Word := BitVec.ofNat 64 (leNat (leBytes 8 a.toNat).reverse)
def vBrev (a : Word) : Word := BitVec.ofNat 64 (reverseBits a.toNat 64)

def execAdd (d a b : XReg) (s : State) : Out := finish s d (s.getX a + s.getX b)
def execAddImm (d a : XReg) (imm : Imm19) (s : State) : Out := finish s d ((s.getX a) + (imm19 imm))
def execAddImmLong (d a : XReg) (imm : Imm32) (s : State) : Out := finish s d ((s.getX a) + (imm32 imm))
def execSub (d a b : XReg) (s : State) : Out := finish s d (s.getX a - s.getX b)
def execAnd (d a b : XReg) (s : State) : Out := finish s d (s.getX a &&& s.getX b)
def execAndImm (d a : XReg) (imm : Imm19) (s : State) : Out := finish s d ((s.getX a) &&& (imm19 imm))
def execAndImmLong (d a : XReg) (imm : Imm32) (s : State) : Out := finish s d ((s.getX a) &&& (imm32 imm))
def execOr (d a b : XReg) (s : State) : Out := finish s d (s.getX a ||| s.getX b)
def execOrImm (d a : XReg) (imm : Imm19) (s : State) : Out := finish s d ((s.getX a) ||| (imm19 imm))
def execOrImmLong (d a : XReg) (imm : Imm32) (s : State) : Out := finish s d ((s.getX a) ||| (imm32 imm))
def execXor (d a b : XReg) (s : State) : Out := finish s d (s.getX a ^^^ s.getX b)
def execXorImm (d a : XReg) (imm : Imm19) (s : State) : Out := finish s d ((s.getX a) ^^^ (imm19 imm))
def execXorImmLong (d a : XReg) (imm : Imm32) (s : State) : Out := finish s d ((s.getX a) ^^^ (imm32 imm))
def execAndn (d a b : XReg) (s : State) : Out := finish s d (s.getX a &&& ~~~s.getX b)
def execOrn (d a b : XReg) (s : State) : Out := finish s d (s.getX a ||| ~~~s.getX b)
def execXnor (d a b : XReg) (s : State) : Out := finish s d (~~~(s.getX a ^^^ s.getX b))
def execSll (d a b : XReg) (s : State) : Out := finish s d (vSll (s.getX a) (s.getX b))
def execSllImm (d a : XReg) (sh : BitVec 6) (s : State) : Out := finish s d (vSll (s.getX a) (sh.setWidth 64))
def execSrl (d a b : XReg) (s : State) : Out := finish s d (vSrl (s.getX a) (s.getX b))
def execSrlImm (d a : XReg) (sh : BitVec 6) (s : State) : Out := finish s d (vSrl (s.getX a) (sh.setWidth 64))
def execSra (d a b : XReg) (s : State) : Out := finish s d (vSra (s.getX a) (s.getX b))
def execSraImm (d a : XReg) (sh : BitVec 6) (s : State) : Out := finish s d (vSra (s.getX a) (sh.setWidth 64))
def execRol (d a b : XReg) (s : State) : Out := finish s d (vRol (s.getX a) (s.getX b))
def execRolImm (d a : XReg) (sh : BitVec 6) (s : State) : Out := finish s d (vRol (s.getX a) (sh.setWidth 64))
def execRor (d a b : XReg) (s : State) : Out := finish s d (vRor (s.getX a) (s.getX b))
def execRorImm (d a : XReg) (sh : BitVec 6) (s : State) : Out := finish s d (vRor (s.getX a) (sh.setWidth 64))
def execMinI64 (d a b : XReg) (s : State) : Out := finish s d (vMinI (s.getX a) (s.getX b))
def execMinI64Imm (d a : XReg) (imm : Imm19) (s : State) : Out := finish s d (vMinI (s.getX a) (imm19 imm))
def execMaxI64 (d a b : XReg) (s : State) : Out := finish s d (vMaxI (s.getX a) (s.getX b))
def execMaxI64Imm (d a : XReg) (imm : Imm19) (s : State) : Out := finish s d (vMaxI (s.getX a) (imm19 imm))
def execMinN64 (d a b : XReg) (s : State) : Out := finish s d (vMinN (s.getX a) (s.getX b))
def execMinN64Imm (d a : XReg) (imm : Imm19) (s : State) : Out := finish s d (vMinN (s.getX a) (imm19 imm))
def execMaxN64 (d a b : XReg) (s : State) : Out := finish s d (vMaxN (s.getX a) (s.getX b))
def execMaxN64Imm (d a : XReg) (imm : Imm19) (s : State) : Out := finish s d (vMaxN (s.getX a) (imm19 imm))
def execSltI64 (d a b : XReg) (s : State) : Out := finish s d (vSltI (s.getX a) (s.getX b))
def execSltI64Imm (d a : XReg) (imm : Imm19) (s : State) : Out := finish s d (vSltI (s.getX a) (imm19 imm))
def execSltN64 (d a b : XReg) (s : State) : Out := finish s d (vSltN (s.getX a) (s.getX b))
def execSltN64Imm (d a : XReg) (imm : Imm19) (s : State) : Out := finish s d (vSltN (s.getX a) (imm19 imm))
def execSeq (d a b : XReg) (s : State) : Out := finish s d (vSeq (s.getX a) (s.getX b))
def execSeqImm (d a : XReg) (imm : Imm19) (s : State) : Out := finish s d (vSeq (s.getX a) (imm19 imm))
def execAdd32 (d a b : XReg) (s : State) : Out := finish s d (sext32 (s.getX a + s.getX b))
def execAdd32Imm (d a : XReg) (imm : Imm19) (s : State) : Out := finish s d (sext32 ((s.getX a) + (imm19 imm)))
def execSub32 (d a b : XReg) (s : State) : Out := finish s d (sext32 (s.getX a - s.getX b))
def execSll32 (d a b : XReg) (s : State) : Out := finish s d (vSll32 (s.getX a) (s.getX b))
def execSll32Imm (d a : XReg) (sh : BitVec 5) (s : State) : Out := finish s d (vSll32 (s.getX a) (sh.setWidth 64))
def execSrl32 (d a b : XReg) (s : State) : Out := finish s d (vSrl32 (s.getX a) (s.getX b))
def execSrl32Imm (d a : XReg) (sh : BitVec 5) (s : State) : Out := finish s d (vSrl32 (s.getX a) (sh.setWidth 64))
def execSra32 (d a b : XReg) (s : State) : Out := finish s d (vSra32 (s.getX a) (s.getX b))
def execSra32Imm (d a : XReg) (sh : BitVec 5) (s : State) : Out := finish s d (vSra32 (s.getX a) (sh.setWidth 64))
def execMul (d a b : XReg) (s : State) : Out := finish s d (s.getX a * s.getX b)
def execMulhI64 (d a b : XReg) (s : State) : Out := finish s d (vMulhI (s.getX a) (s.getX b))
def execMulhN64 (d a b : XReg) (s : State) : Out := finish s d (vMulhN (s.getX a) (s.getX b))
def execMul32 (d a b : XReg) (s : State) : Out := finish s d (sext32 (s.getX a * s.getX b))
def execDivI64 (d a b : XReg) (s : State) : Out := finish s d (vDivI (s.getX a) (s.getX b))
def execDivN64 (d a b : XReg) (s : State) : Out := finish s d (vDivN (s.getX a) (s.getX b))
def execRemI64 (d a b : XReg) (s : State) : Out := finish s d (vRemI (s.getX a) (s.getX b))
def execRemN64 (d a b : XReg) (s : State) : Out := finish s d (vRemN (s.getX a) (s.getX b))

def execClz (d a : XReg) (s : State) : Out := finish s d (vClz (s.getX a))
def execCtz (d a : XReg) (s : State) : Out := finish s d (vCtz (s.getX a))
def execPopc (d a : XReg) (s : State) : Out := finish s d (vPopc (s.getX a))
def execRev8 (d a : XReg) (s : State) : Out := finish s d (vRev8 (s.getX a))
def execBrev (d a : XReg) (s : State) : Out := finish s d (vBrev (s.getX a))
def execSext8 (d a : XReg) (s : State) : Out := finish s d (sextLow 8 (s.getX a))
def execSext16 (d a : XReg) (s : State) : Out := finish s d (sextLow 16 (s.getX a))
def execSext32 (d a : XReg) (s : State) : Out := finish s d (sext32 (s.getX a))
def execZext8 (d a : XReg) (s : State) : Out := finish s d (zextLow 8 (s.getX a))
def execZext16 (d a : XReg) (s : State) : Out := finish s d (zextLow 16 (s.getX a))
def execZext32 (d a : XReg) (s : State) : Out := finish s d (zextLow 32 (s.getX a))

/-- 03 R62. -/
def execSel (d a b c : XReg) (s : State) : Out := finish s d (if s.getX c = 0 then s.getX b else s.getX a)
def execMadd (d a b c : XReg) (s : State) : Out := finish s d (s.getX a * s.getX b + s.getX c)

/-- 03 R63. -/
def execLi (d : XReg) (imm : Imm19) (s : State) : Out := finish s d (imm19 imm)
def execLiLong (d : XReg) (imm : Imm32) (s : State) : Out := finish s d (imm32 imm)
def execLih (d : XReg) (imm : Imm32) (s : State) : Out := finish s d (imm ++ (s.getX d).setWidth 32)
def execLpc (d : XReg) (imm : Imm19) (s : State) : Out := finish s d (s.me.pc + imm19 imm)
def execLpcLong (d : XReg) (imm : Imm32) (s : State) : Out := finish s d (s.me.pc + imm32 imm)

end Sys2Proof.Machine
end

