-- ==== Sys2Proof/Machine/ScalarFp.lean ====
section
/-!
DEFINITION. Scalar floating point (03 R64 to R69).
-/
namespace Sys2Proof.Machine

/-- An FP operand of a scalar instruction (01 R13), flushed when FZ = 1 (03 R67). -/
def State.fx (s : State) (f : Fmt) (r : XReg) : FVal :=
  ((layoutOf f).decode ((s.getX r).toNat % 2 ^ f.width)).flush (layoutOf f) s.me.fz

/-- Write an FP result, zero above its width (01 R13), and OR its flags into FCSR (03 R66). -/
def finishFp (s : State) (d : XReg) (r : Rounded) : Out := finish (s.raiseFlags r.flags) d (BitVec.ofNat 64 r.bits)

/-- The arithmetic forms (03 R65, R66). -/
def fpArith (f : Fmt) (rms : Rms) (d : XReg) (g : Mode → Exact) (s : State) : Out :=
  finishFp s d (rounded f (s.me.mode rms) s.me.fz (g (s.me.mode rms)))

/-- fmin and fmax (03 R68): exact, no rounding takes place. -/
def fpMinMax (f : Fmt) (wantMax : Bool) (d a b : XReg) (s : State) : Out :=
  finishFp s d (rounded f .rne s.me.fz (fMinMax wantMax (s.fx f a) (s.fx f b)))

/-- The comparisons (03 R68): `quiet` ones set NV for a signalling NaN alone. -/
def fpCompare (f : Fmt) (quiet : Bool) (g : FVal → FVal → Bool) (d a b : XReg) (s : State) : Out :=
  let x := s.fx f a
  let y := s.fx f b
  let nv := if quiet then x.isSnan || y.isSnan else x.isNan || y.isNan
  finish (s.raiseFlags { Flags.none with nv := nv }) d (bool64 (!x.isNan && !y.isNan && g x y))

/-- The sign forms (03 R65, R66): bits are copied and no flag is raised. -/
def fpSign (f : Fmt) (g : Bool → Bool → Bool) (d a b : XReg) (s : State) : Out :=
  let w := f.width
  let x := (s.getX a).toNat % 2 ^ w
  let neg := g ((s.getX a).getLsbD (w - 1)) ((s.getX b).getLsbD (w - 1))
  finish s d (BitVec.ofNat 64 (x % 2 ^ (w - 1) + if neg then 2 ^ (w - 1) else 0))

/-- The class mask (03 R68); the operand is not flushed (R67 names FN 0x00 to 0x0A). -/
def fpClass (f : Fmt) (d a : XReg) (s : State) : Out :=
  finish s d (BitVec.ofNat 64 (2 ^ fClass (layoutOf f) ((layoutOf f).decode ((s.getX a).toNat % 2 ^ f.width))))

/-- A conversion to a floating format (03 R69): the value is exact before it is rounded. -/
def fpTo (f : Fmt) (rms : Rms) (d : XReg) (v : FVal) (s : State) : Out :=
  finishFp s d (roundFmt f (s.me.mode rms) s.me.fz v)

/-- A conversion to an integer (03 R69). -/
def fpToInt (nat : Bool) (rms : Rms) (d : XReg) (v : FVal) (s : State) : Out :=
  finishFp s d (toInteger 64 nat (s.me.mode rms) v)

def execFaddF64 (rms : Rms) (d a b : XReg) (s : State) : Out := fpArith .fp64 rms d (fun m => fAdd m (s.fx .fp64 a) (s.fx .fp64 b)) s
def execFsubF64 (rms : Rms) (d a b : XReg) (s : State) : Out := fpArith .fp64 rms d (fun m => fSub m (s.fx .fp64 a) (s.fx .fp64 b)) s
def execFmulF64 (rms : Rms) (d a b : XReg) (s : State) : Out := fpArith .fp64 rms d (fun _ => fMul (s.fx .fp64 a) (s.fx .fp64 b)) s
def execFdivF64 (rms : Rms) (d a b : XReg) (s : State) : Out := fpArith .fp64 rms d (fun _ => fDiv (s.fx .fp64 a) (s.fx .fp64 b)) s
def execFsqrtF64 (rms : Rms) (d a : XReg) (s : State) : Out := fpArith .fp64 rms d (fun _ => fSqrt (s.fx .fp64 a)) s
def execFmaF64 (rms : Rms) (d a b c : XReg) (s : State) : Out :=
  fpArith .fp64 rms d (fun m => fFma m (s.fx .fp64 a) (s.fx .fp64 b) (s.fx .fp64 c)) s
def execFminF64 (d a b : XReg) (s : State) : Out := fpMinMax .fp64 false d a b s
def execFmaxF64 (d a b : XReg) (s : State) : Out := fpMinMax .fp64 true d a b s
def execFeqF64 (d a b : XReg) (s : State) : Out := fpCompare .fp64 true fEqual d a b s
def execFltF64 (d a b : XReg) (s : State) : Out := fpCompare .fp64 false fLess d a b s
def execFleF64 (d a b : XReg) (s : State) : Out := fpCompare .fp64 false (fun x y => !fLess y x) d a b s
def execFclassF64 (d a : XReg) (s : State) : Out := fpClass .fp64 d a s
def execFsgnF64 (d a b : XReg) (s : State) : Out := fpSign .fp64 (fun _ y => y) d a b s
def execFsgnnF64 (d a b : XReg) (s : State) : Out := fpSign .fp64 (fun _ y => !y) d a b s
def execFsgnxF64 (d a b : XReg) (s : State) : Out := fpSign .fp64 (fun x y => x != y) d a b s

def execFaddF32 (rms : Rms) (d a b : XReg) (s : State) : Out := fpArith .fp32 rms d (fun m => fAdd m (s.fx .fp32 a) (s.fx .fp32 b)) s
def execFsubF32 (rms : Rms) (d a b : XReg) (s : State) : Out := fpArith .fp32 rms d (fun m => fSub m (s.fx .fp32 a) (s.fx .fp32 b)) s
def execFmulF32 (rms : Rms) (d a b : XReg) (s : State) : Out := fpArith .fp32 rms d (fun _ => fMul (s.fx .fp32 a) (s.fx .fp32 b)) s
def execFdivF32 (rms : Rms) (d a b : XReg) (s : State) : Out := fpArith .fp32 rms d (fun _ => fDiv (s.fx .fp32 a) (s.fx .fp32 b)) s
def execFsqrtF32 (rms : Rms) (d a : XReg) (s : State) : Out := fpArith .fp32 rms d (fun _ => fSqrt (s.fx .fp32 a)) s
def execFmaF32 (rms : Rms) (d a b c : XReg) (s : State) : Out :=
  fpArith .fp32 rms d (fun m => fFma m (s.fx .fp32 a) (s.fx .fp32 b) (s.fx .fp32 c)) s
def execFminF32 (d a b : XReg) (s : State) : Out := fpMinMax .fp32 false d a b s
def execFmaxF32 (d a b : XReg) (s : State) : Out := fpMinMax .fp32 true d a b s
def execFeqF32 (d a b : XReg) (s : State) : Out := fpCompare .fp32 true fEqual d a b s
def execFltF32 (d a b : XReg) (s : State) : Out := fpCompare .fp32 false fLess d a b s
def execFleF32 (d a b : XReg) (s : State) : Out := fpCompare .fp32 false (fun x y => !fLess y x) d a b s
def execFclassF32 (d a : XReg) (s : State) : Out := fpClass .fp32 d a s
def execFsgnF32 (d a b : XReg) (s : State) : Out := fpSign .fp32 (fun _ y => y) d a b s
def execFsgnnF32 (d a b : XReg) (s : State) : Out := fpSign .fp32 (fun _ y => !y) d a b s
def execFsgnxF32 (d a b : XReg) (s : State) : Out := fpSign .fp32 (fun x y => x != y) d a b s

def execFcvtF32F64 (rms : Rms) (d a : XReg) (s : State) : Out := fpTo .fp32 rms d (s.fx .fp64 a) s
def execFcvtF64F32 (rms : Rms) (d a : XReg) (s : State) : Out := fpTo .fp64 rms d (s.fx .fp32 a) s
def execFcvtF64I64 (rms : Rms) (d a : XReg) (s : State) : Out := fpTo .fp64 rms d (FVal.ofInt (s.getX a).toInt) s
def execFcvtF64N64 (rms : Rms) (d a : XReg) (s : State) : Out := fpTo .fp64 rms d (FVal.ofInt (s.getX a).toNat) s
def execFcvtF32I64 (rms : Rms) (d a : XReg) (s : State) : Out := fpTo .fp32 rms d (FVal.ofInt (s.getX a).toInt) s
def execFcvtF32N64 (rms : Rms) (d a : XReg) (s : State) : Out := fpTo .fp32 rms d (FVal.ofInt (s.getX a).toNat) s
def execFcvtI64F64 (rms : Rms) (d a : XReg) (s : State) : Out := fpToInt false rms d (s.fx .fp64 a) s
def execFcvtN64F64 (rms : Rms) (d a : XReg) (s : State) : Out := fpToInt true rms d (s.fx .fp64 a) s
def execFcvtI64F32 (rms : Rms) (d a : XReg) (s : State) : Out := fpToInt false rms d (s.fx .fp32 a) s
def execFcvtN64F32 (rms : Rms) (d a : XReg) (s : State) : Out := fpToInt true rms d (s.fx .fp32 a) s

end Sys2Proof.Machine
end

