-- ==== Sys2Proof/Machine/ScalarMem.lean ====
section
/-!
DEFINITION. Scalar memory instructions (03 R70 to R80).
-/
namespace Sys2Proof.Machine

/-- Extensions of loaded bytes (03 R71). -/
def extI (n : Nat) (v : Nat) : Word := sextLow (8 * n) (BitVec.ofNat 64 v)
def extN (v : Nat) : Word := BitVec.ofNat 64 v

def execLdI8 (d a : XReg) (off : Imm19) (s : State) : Out := scalarLoad s d (s.getX a + imm19 off) 1 (extI 1)
def execLdI8Long (d a : XReg) (off : Imm32) (s : State) : Out := scalarLoad s d (s.getX a + imm32 off) 1 (extI 1)
def execLdN8 (d a : XReg) (off : Imm19) (s : State) : Out := scalarLoad s d (s.getX a + imm19 off) 1 extN
def execLdN8Long (d a : XReg) (off : Imm32) (s : State) : Out := scalarLoad s d (s.getX a + imm32 off) 1 extN
def execLdI16 (d a : XReg) (off : Imm19) (s : State) : Out := scalarLoad s d (s.getX a + imm19 off) 2 (extI 2)
def execLdI16Long (d a : XReg) (off : Imm32) (s : State) : Out := scalarLoad s d (s.getX a + imm32 off) 2 (extI 2)
def execLdN16 (d a : XReg) (off : Imm19) (s : State) : Out := scalarLoad s d (s.getX a + imm19 off) 2 extN
def execLdN16Long (d a : XReg) (off : Imm32) (s : State) : Out := scalarLoad s d (s.getX a + imm32 off) 2 extN
def execLdI32 (d a : XReg) (off : Imm19) (s : State) : Out := scalarLoad s d (s.getX a + imm19 off) 4 (extI 4)
def execLdI32Long (d a : XReg) (off : Imm32) (s : State) : Out := scalarLoad s d (s.getX a + imm32 off) 4 (extI 4)
def execLdN32 (d a : XReg) (off : Imm19) (s : State) : Out := scalarLoad s d (s.getX a + imm19 off) 4 extN
def execLdN32Long (d a : XReg) (off : Imm32) (s : State) : Out := scalarLoad s d (s.getX a + imm32 off) 4 extN
def execLdI64 (d a : XReg) (off : Imm19) (s : State) : Out := scalarLoad s d (s.getX a + imm19 off) 8 extN
def execLdI64Long (d a : XReg) (off : Imm32) (s : State) : Out := scalarLoad s d (s.getX a + imm32 off) 8 extN
def execSt8 (d a : XReg) (off : Imm19) (s : State) : Out := scalarStore s (s.getX a + imm19 off) 1 (s.getX d)
def execSt8Long (d a : XReg) (off : Imm32) (s : State) : Out := scalarStore s (s.getX a + imm32 off) 1 (s.getX d)
def execSt16 (d a : XReg) (off : Imm19) (s : State) : Out := scalarStore s (s.getX a + imm19 off) 2 (s.getX d)
def execSt16Long (d a : XReg) (off : Imm32) (s : State) : Out := scalarStore s (s.getX a + imm32 off) 2 (s.getX d)
def execSt32 (d a : XReg) (off : Imm19) (s : State) : Out := scalarStore s (s.getX a + imm19 off) 4 (s.getX d)
def execSt32Long (d a : XReg) (off : Imm32) (s : State) : Out := scalarStore s (s.getX a + imm32 off) 4 (s.getX d)
def execSt64 (d a : XReg) (off : Imm19) (s : State) : Out := scalarStore s (s.getX a + imm19 off) 8 (s.getX d)
def execSt64Long (d a : XReg) (off : Imm32) (s : State) : Out := scalarStore s (s.getX a + imm32 off) 8 (s.getX d)

/-- Checks of acquire and release forms: those of a scalar access; a page marked remote and a UO page raise the access fault (11
R248, 21 R382). -/
def State.checkOrdered (s : State) (acc : Acc) (ea : Word) (size : Nat) : Except Bad Xlat :=
  match s.checkAccess acc ea size with
  | .error b => .error b
  | .ok x =>
    match x.place with
    | .far _ _ => .error ⟨cAccess, detailOf acc true⟩
    | _ => if x.kind == some 2 then .error ⟨cAccess, detailOf acc false⟩ else .ok x

/-- Scopes whose acquire reads the home and not the data L1 (11 R259). -/
def isWide : Scope → Bool
  | .lg | .co => false
  | _ => true

/-- ld.acq (03 R76, 11 R259): its load, then every line of the core's data L1 is dropped. -/
def loadAcquire (s : State) (sc : Scope) (d : XReg) (ea : Word) (n : Nat) : Out :=
  match s.checkOrdered .load ea n with
  | .error b => trapA s b.code b.detail ea
  | .ok x =>
    match s.readAt x (!isWide sc) n with
    | (.bytes l, s') => finish (({ s' with mem := s'.mem.dropL1 s'.me.core } : State).hit none ea) d (extN (leNat l))
    | (.empty, s') => stall s'
    | (.poisoned, s') => trapA s' cPoison 0 (ea &&& ~~~7)
    | (.denied b, s') => trapA s' b.code b.detail ea
    | (.lost pkg, s') => trapA s' cPeerLost (BitVec.ofNat 12 pkg) ea
    | (.later, s') => stall s'

/-- st.rel (03 R76): every earlier S store has been performed when it executes (log 4), so it performs its store. -/
def storeRelease (s : State) (ea : Word) (n : Nat) (v : Word) : Out :=
  match s.checkOrdered .store ea n with
  | .error b => trapA s b.code b.detail ea
  | .ok x => .next ((s.writeAt x (leBytes n v.toNat)).hit none ea).bump

def execLdAcq (sc : Scope) (d a : XReg) (off : Imm19) (s : State) : Out := loadAcquire s sc d (s.getX a + imm19 off) 8
def execLdAcqN32 (sc : Scope) (d a : XReg) (off : Imm19) (s : State) : Out := loadAcquire s sc d (s.getX a + imm19 off) 4
def execStRel (_sc : Scope) (d a : XReg) (off : Imm19) (s : State) : Out :=
  storeRelease s (s.getX a + imm19 off) 8 (s.getX d)
def execStRel32 (_sc : Scope) (d a : XReg) (off : Imm19) (s : State) : Out :=
  storeRelease s (s.getX a + imm19 off) 4 (s.getX d)

/-- An atomic of 8 or 4 bytes (03 R77): `f` works on naturals below 2^w; the old value is sign-extended but in natural forms. -/
def atomicOp (f : Nat → Nat → Nat → Nat) (natural : Bool) (w32 : Bool) (d a b : XReg) (off : Imm19) (s : State) : Out :=
  let n := if w32 then 4 else 8
  let w := 8 * n
  scalarAtomic s d (s.getX a + imm19 off) n (fun old => some (f w old ((s.getX b).toNat % 2 ^ w)))
    (fun old => if natural then extN old else extI n old)

/-- The smaller of two naturals below 2^w, as two's complement. -/
def signedLe (w a b : Nat) : Bool := decide (integerOf' w a ≤ integerOf' w b)
where
  integerOf' (w v : Nat) : Int := if v < 2 ^ (w - 1) then (v : Int) else (v : Int) - (2 ^ w : Nat)

def execAmoSwap (w32 : Bool) (d a b : XReg) (off : Imm19) (s : State) : Out :=
  atomicOp (fun _ _ b => b) false w32 d a b off s
def execAmoAdd (w32 : Bool) (d a b : XReg) (off : Imm19) (s : State) : Out :=
  atomicOp (fun w old b => (old + b) % 2 ^ w) false w32 d a b off s
def execAmoAnd (w32 : Bool) (d a b : XReg) (off : Imm19) (s : State) : Out :=
  atomicOp (fun _ old b => old &&& b) false w32 d a b off s
def execAmoOr (w32 : Bool) (d a b : XReg) (off : Imm19) (s : State) : Out :=
  atomicOp (fun _ old b => old ||| b) false w32 d a b off s
def execAmoXor (w32 : Bool) (d a b : XReg) (off : Imm19) (s : State) : Out :=
  atomicOp (fun _ old b => old ^^^ b) false w32 d a b off s
def execAmoMinI (w32 : Bool) (d a b : XReg) (off : Imm19) (s : State) : Out :=
  atomicOp (fun w old b => if signedLe w old b then old else b) false w32 d a b off s
def execAmoMaxI (w32 : Bool) (d a b : XReg) (off : Imm19) (s : State) : Out :=
  atomicOp (fun w old b => if signedLe w old b then b else old) false w32 d a b off s
def execAmoMinN (w32 : Bool) (d a b : XReg) (off : Imm19) (s : State) : Out :=
  atomicOp (fun _ old b => min old b) true w32 d a b off s
def execAmoMaxN (w32 : Bool) (d a b : XReg) (off : Imm19) (s : State) : Out :=
  atomicOp (fun _ old b => max old b) true w32 d a b off s

/-- Compare and swap (03 R78): a failed comparison writes nothing. -/
def compareSwap (n : Nat) (d a b c : XReg) (off : Imm19) (s : State) : Out :=
  scalarAtomic s d (s.getX a + imm19 off) n
    (fun old => if old = (s.getX b).toNat % 2 ^ (8 * n) then some ((s.getX c).toNat % 2 ^ (8 * n)) else none) (extI n)

def execCas64 (d a b c : XReg) (off : Imm19) (s : State) : Out := compareSwap 8 d a b c off s
def execCas32 (d a b c : XReg) (off : Imm19) (s : State) : Out := compareSwap 4 d a b c off s

/-- The data line an address lies in, as a thread translates it, is asked for by its core's data L1, where the L1 may hold it (06 R140); a
failed check drops the request. -/
def State.fillData (s : State) (t : Thread) (ea : Word) : State :=
  match s.translate t.env .load none ea with
  | .ok ⟨.near h, _, true⟩ => { s with mem := { s.mem with l1 := fillLine 256 4 t.core h 0 s.time s.mem s.mem.l1 } }
  | _ => s

/-- The instruction line an address lies in is asked for by the core's instruction cache, which holds lines of HBM (05 R113, R114, 06
R139); a failed check drops the request. -/
def State.fillCode (s : State) (t : Thread) (ea : Word) : State :=
  match s.translate t.env .fetch none ea with
  | .ok ⟨.near h, _, _⟩ =>
    if 2 ^ 40 ≤ h then s else { s with mem := { s.mem with icache := fillLine 64 8 t.core h 0 s.time s.mem s.mem.icache } }
  | _ => s

/-- Whether the instruction cache of a thread's core holds the line of an address: prefi of it has no effect (05 R114). -/
def State.holdsCode (s : State) (t : Thread) (ea : Word) : Bool :=
  match s.translate t.env .fetch none ea with
  | .ok ⟨.near h, _, _⟩ => s.mem.icache.any (fun c => c.core == t.core && c.line == h / 128)
  | _ => false

/-- Prefetches (03 R80): a line moves, nothing a program reads changes but which copy a later access sees. -/
def execPrefd (a : XReg) (off : Imm19) (s : State) : Out :=
  .next ((s.fillData s.me (s.getX a + imm19 off)).hit none (s.getX a + imm19 off)).bump
def execPrefi (a : XReg) (off : Imm19) (s : State) : Out :=
  .next ((if s.holdsCode s.me (s.getX a + imm19 off) then s else s.fillCode s.me (s.getX a + imm19 off)).hit none (s.getX a + imm19 off)).bump

end Sys2Proof.Machine
end

