-- ==== Sys2Proof/Machine/Control.lean ====
section
/-!
DEFINITION. Branches and jumps (03 R81, R82), vector configuration (R84 to R88), drain (R92), the software trap (04 R102) and words
that are no instruction (02 R38).
-/
namespace Sys2Proof.Machine

/-- A branch target: pc plus eight times the displacement in words (03 R81, R82). -/
def State.target (s : State) (disp : Word) : Word := s.me.pc + (disp <<< 3)

def branchIf (s : State) (taken : Bool) (disp : Imm19) : Out :=
  .next (if taken then s.setPc (s.target (imm19 disp)) else s.bump)

def execBeq (a b : XReg) (disp : Imm19) (s : State) : Out := branchIf s (s.getX a == s.getX b) disp
def execBne (a b : XReg) (disp : Imm19) (s : State) : Out := branchIf s (s.getX a != s.getX b) disp
def execBltI64 (a b : XReg) (disp : Imm19) (s : State) : Out := branchIf s (decide ((s.getX a).toInt < (s.getX b).toInt)) disp
def execBgeI64 (a b : XReg) (disp : Imm19) (s : State) : Out := branchIf s (decide ((s.getX b).toInt ≤ (s.getX a).toInt)) disp
def execBltN64 (a b : XReg) (disp : Imm19) (s : State) : Out := branchIf s (decide ((s.getX a).toNat < (s.getX b).toNat)) disp
def execBgeN64 (a b : XReg) (disp : Imm19) (s : State) : Out := branchIf s (decide ((s.getX b).toNat ≤ (s.getX a).toNat)) disp

/-- 03 R82. -/
def execJal (d : XReg) (disp : Imm19) (s : State) : Out := .next ((s.setX d (s.me.pc + 8)).setPc (s.target (imm19 disp)))
def execJalLong (d : XReg) (disp : Imm32) (s : State) : Out :=
  .next ((s.setX d (s.me.pc + 8)).setPc (s.target (imm32 disp)))

/-- jalr (03 R82, 02 R30): a target that is not a multiple of 8 is the instruction-address-misaligned trap, xD unchanged. -/
def execJalr (d a : XReg) (off : Imm19) (s : State) : Out :=
  let t := s.getX a + imm19 off
  if t.toNat % 8 = 0 then .next ((s.setX d (s.me.pc + 8)).setPc t) else trapA s cFetchAlign 0 t

/-- Whether issue on a core is stopped by DBGCTL.HALT (04 R111, R112). -/
def State.halted (s : State) (core : Nat) : Bool :=
  match s.cores.find? (fun c => c.core == core) with
  | some c => c.halt
  | none => false

/-- LC of a cluster: lanes not fenced on cores not fenced (19 R330). -/
def State.laneCount (s : State) (cl : Nat) : Nat :=
  ((List.range 16).map (fun i => (bitsOf (s.coreLanes (16 * cl + i))).length)).sum

def State.cluster (s : State) (cl : Nat) : Cluster := (s.clusters.find? (fun c => c.id == cl)).getD (Cluster.atReset cl)

/-- LBEFF (19 R330). -/
def State.lbEff (s : State) (cl : Nat) : Nat := min (s.cluster cl).lbudget (s.cluster cl).lbcap

/-- VTYPE as software reads it (06 R119). -/
def VType.word (v : VType) : Word :=
  BitVec.ofBool v.vill ++ 0#56 ++ BitVec.ofBool v.mp ++ BitVec.ofBool v.tp ++ v.grp ++ v.wid

/-- settype (03 R85): a request with WID 5 to 7, or with a bit above [6] set, is not supported. -/
def setType (s : State) (d : XReg) (req : Word) : Out :=
  let ok := req.extractLsb' 7 57 == 0 && decide ((req.extractLsb' 0 3).toNat < 5)
  let vt : VType := if ok then ⟨false, req.getLsbD 6, req.getLsbD 5, req.extractLsb' 3 2, req.extractLsb' 0 3⟩ else VType.ill
  finish { s with me := { s.me with vtype := vt, vl := 0, vstart := 0 } } d (bool64 (!ok))

def execSettypeImm (d : XReg) (req : BitVec 7) (s : State) : Out := setType s d (req.setWidth 64)
def execSettypeReg (d a : XReg) (s : State) : Out := setType s d (s.getX a)

/-- The VL setvl grants (03 R86). -/
def State.grantVl (s : State) (n : Nat) : Nat :=
  let v := s.me.vtype
  let bud := max 1 (s.lbEff s.me.cluster * s.me.lanes / s.laneCount s.me.cluster) * v.group * v.perGroup
  min n (min (v.vlmax s.me.lanes) bud)

/-- setvl (03 R86): the ill-formed vector type trap comes from the access processor. -/
def setVl (s : State) (d : XReg) (n : Nat) : Out :=
  if s.me.vtype.vill then trapA s cVtype 0 0
  else finish { s with me := { s.me with vl := s.grantVl n, vstart := 0 } } d (BitVec.ofNat 64 (s.grantVl n))

def execSetvlReg (d a : XReg) (s : State) : Out := setVl s d (s.getX a).toNat
def execSetvlImm (d : XReg) (req : Imm19) (s : State) : Out := setVl s d req.toNat

/-- Row budget (10 R226). -/
def State.rowBudget (s : State) : Nat := max 1 (32 * s.lbEff s.me.cluster / (4 * s.laneCount s.me.cluster))

/-- setshape (03 R88). -/
def setShape (s : State) (d : XReg) (rows cols : Nat) : Out :=
  let r := min rows (min 32 s.rowBudget)
  let c := min cols 32
  finish { s with me := { s.me with rows := BitVec.ofNat 6 r, cols := BitVec.ofNat 6 c } } d (BitVec.ofNat 64 (r + 256 * c))

def execSetshapeReg (d a b : XReg) (s : State) : Out := setShape s d (s.getX a).toNat (s.getX b).toNat
def execSetshapeImm (d : XReg) (rows cols : BitVec 6) (s : State) : Out := setShape s d rows.toNat cols.toNat

/-- The software trap (04 R102). -/
def execTrap (imm : BitVec 12) (s : State) : Out := trapA s cSoftware imm 0

/-- A fetched word that is no instruction (02 R38): the illegal-instruction trap at the word; neither slot of a pair word has run (R44). -/
def execIllegalWord (_w : Word) (s : State) : Out := trapA { s with me := { s.me with only1 := false } } cIllegal 0 0

end Sys2Proof.Machine
end

