-- ==== Sys2Proof/Machine/Operands.lean ====
section
/-!
DEFINITION. Operand forms of execute-class instructions: elements of vector, mask and scale registers (06 R117, R123, 07 R143,
R158), the element classes (06 R121), scalar operands (08 R169), and elements of memory (09 R197 to R200, 18 R321, 10 R239).
-/
namespace Sys2Proof.Machine

/-- Why an element cannot be performed now: it waits, or it fails with a cause (04 R98) and, for a stream, ESTREAM. -/
structure Fail where
  code : BitVec 8
  src : BitVec 2
  detail : BitVec 12
  addr : Word
  stream : Word
  deriving DecidableEq, Repr

inductive Stop where
  | wait
  | fail (f : Fail)
  deriving DecidableEq, Repr

/-- Why a memory element cannot be performed: it waits, or a check fails at an address. -/
inductive Miss where
  | wait
  | bad (b : Bad) (addr : Word)
  deriving DecidableEq, Repr

/-- SRC of 04 R97. -/
def srcLanes : BitVec 2 := 1
def srcMatrix : BitVec 2 := 2
def srcStream : BitVec 2 := 3

def Miss.stop (src : BitVec 2) (stream : Word) : Miss → Stop
  | .wait => .wait
  | .bad b a => .fail ⟨b.code, src, b.detail, a, stream⟩

/-- One slot of a window entry, as the lanes perform it: operation, captured scalars, VL, VTYPE, first element, elements of a
store that stand again (04 R94), SHAPE, which slot, its place in the window, the tag of its result (06 R124), the mask by which it takes
positions of a port (09 R207), the VSTART of the instruction, the TIME of the youngest load its scalars depend on (11 R249), and the operation
of slot 0 where it stands for slot 1. -/
structure Work where
  op : EOp
  sc : List Word
  vl : Nat
  vt : VType
  vstart : Nat
  low : Nat
  upto : Nat
  shape : Word
  second : Bool
  place : Nat
  tag : BitVec 4
  sel : Option (BitVec 16384)
  first : Nat
  since : Nat
  prev : Option EOp
  deriving DecidableEq, Repr

def Work.scal (w : Work) (n : Nat) : Word := w.sc.getD n 0

/-- A register of each file by number. -/
def Thread.vreg (t : Thread) (n : Nat) : VFile := t.v[n % 32]'(by omega)
def Thread.setVreg (t : Thread) (n : Nat) (f : VFile) : Thread := { t with v := t.v.set (n % 32) f (by omega) }
def Thread.kreg (t : Thread) (k : KReg) : KFile := t.k[k.toNat]'(by have := k.isLt; omega)
def Thread.setKreg (t : Thread) (k : KReg) (f : KFile) : Thread :=
  if k = 0 then t else { t with k := t.k.set k.toNat f (by have := k.isLt; omega) }
def Thread.ereg (t : Thread) (e : EReg) : EFile := t.e[e.toNat]'(by have := e.isLt; omega)
def Thread.setEreg (t : Thread) (e : EReg) (f : EFile) : Thread :=
  { t with e := t.e.set e.toNat f (by have := e.isLt; omega) }
def Thread.mreg (t : Thread) (m : MReg) : MFile := t.m[m.toNat]'(by have := m.isLt; omega)
def Thread.setMreg (t : Thread) (m : MReg) (f : MFile) : Thread :=
  { t with m := t.m.set m.toNat f (by have := m.isLt; omega) }

/-- A group of a register (06 R117). -/
def VFile.groupAt (f : VFile) (g : Nat) : Group := f.groups[g % 32]'(by omega)

/-- Element j of a group at width w (07 R143), and the group with it replaced. -/
def getPart (w : Nat) (g : Group) (j : Nat) : Nat := g.toNat / 2 ^ (w * j) % 2 ^ w
def setPart (w : Nat) (g : Group) (j v : Nat) : Group :=
  (g &&& ~~~((BitVec.ofNat 256 (2 ^ w - 1)) <<< (w * j))) ||| ((BitVec.ofNat 256 (v % 2 ^ w)) <<< (w * j))

/-- The register and the group of it that hold element group g of the register group based at r, for L lanes (06 R117). -/
def groupHome (lanes : Nat) (r : VReg) (g : Nat) : Nat × Nat := (r.toNat + g / (4 * lanes), g % (4 * lanes))

/-- Element i of width w of the register group based at r. -/
def Thread.vget (t : Thread) (r : VReg) (w i : Nat) : Nat :=
  let e := 256 / w
  let (n, g) := groupHome t.lanes r (i / e)
  getPart w ((t.vreg n).groupAt g) (i % e)

/-- The number of the register whose poisoned word holds element i (19 R344). -/
def Thread.vpoison (t : Thread) (r : VReg) (w i : Nat) : Option Nat :=
  let e := 256 / w
  let (n, g) := groupHome t.lanes r (i / e)
  if (t.vreg n).poison.getLsbD (4 * g + w * (i % e) / 64) then some (n % 32) else none

/-- DETAIL of a poisoned register word (04 R98): REG = 1, number, file. -/
def regPoison (file num : Nat) : Fail := ⟨cPoison, srcLanes, BitVec.ofNat 12 (1 + 2 * num + 64 * file), 0, 0⟩

/-- Element i of a vector register operand that is storage. -/
def Thread.vread (t : Thread) (r : VReg) (w i : Nat) : Except Stop Nat :=
  match t.vpoison r w i with
  | some n => .error (.fail (regPoison 0 n))
  | none => .ok (t.vget r w i)

/-- Mask bit i; k0 is all ones (06 R121, R123). -/
def Thread.kget (t : Thread) (k : KReg) (i : Nat) : Bool := k == 0 || (t.kreg k).bits.getLsbD i

/-- Mask bit i, where its register word is not poisoned. -/
def Thread.kread (t : Thread) (k : KReg) (i : Nat) : Except Stop Bool :=
  if k != 0 && (t.kreg k).poison.getLsbD (i / 64) then .error (.fail (regPoison 1 k.toNat)) else .ok (t.kget k i)

/-- Scale byte j (07 R158). -/
def Thread.eget (t : Thread) (e : EReg) (j : Nat) : Nat := ((t.ereg e).bits.extractLsb' (8 * j) 8).toNat

def Thread.eread (t : Thread) (e : EReg) (j : Nat) : Except Stop Nat :=
  if (t.ereg e).poison.getLsbD (j / 8) then .error (.fail (regPoison 3 e.toNat)) else .ok (t.eget e j)

/-- Words of 8 bytes that a list of written element positions of a group covers whole (19 R344): a mask of its four words. -/
def wholeWords (w : Nat) (js : List Nat) : BitVec 4 :=
  (List.range 4).foldl (fun m n =>
    if (List.range (64 / w)).all (fun k => js.contains (n * (64 / w) + k)) then m ||| BitVec.twoPow 4 n else m) 0

/-- Write elements of one element group of a register group (06 R106, R121, R130; 19 R344). -/
def Thread.vwrite (t : Thread) (r : VReg) (w g : Nat) (vals : List (Nat × Nat)) : Thread :=
  if vals.isEmpty then t
  else
    let (n, lg) := groupHome t.lanes r g
    let f := t.vreg n
    let e := 256 / w
    let new := vals.foldl (fun acc p => setPart w acc (p.1 % e) p.2) (f.groupAt lg)
    let clear := (wholeWords w (vals.map (fun p => p.1 % e))).setWidth 128 <<< (4 * lg)
    t.setVreg n { f with
      groups := f.groups.set (lg % 32) new (by omega)
      dirty := true
      wx := max f.wx (lg + 1)
      gam := f.gam ||| BitVec.twoPow 32 lg
      poison := f.poison &&& ~~~clear }

/-- Write bits of a mask register (06 R123); a write to k0 is discarded (01 R12). -/
def Thread.kwrite (t : Thread) (k : KReg) (vals : List (Nat × Nat)) : Thread :=
  if vals.isEmpty then t
  else
    let f := t.kreg k
    let bits := vals.foldl (fun b p =>
      if p.2 % 2 = 1 then b ||| BitVec.twoPow 16384 p.1 else b &&& ~~~(BitVec.twoPow 16384 p.1)) f.bits
    let words := (distinct (vals.map (fun p => p.1 / 64))).filter
      (fun n => (List.range 64).all (fun j => vals.any (fun p => p.1 == 64 * n + j)))
    t.setKreg k ⟨bits, true, words.foldl (fun p n => p &&& ~~~(BitVec.twoPow 256 n)) f.poison⟩

/-- Write bytes of a scale register (07 R158). -/
def Thread.ewrite (t : Thread) (e : EReg) (vals : List (Nat × Nat)) : Thread :=
  if vals.isEmpty then t
  else
    let f := t.ereg e
    let bits := vals.foldl (fun b p =>
      (b &&& ~~~((255#2048) <<< (8 * p.1))) ||| ((BitVec.ofNat 2048 (p.2 % 256)) <<< (8 * p.1))) f.bits
    let words := (List.range 32).filter (fun n => (List.range 8).all (fun j => vals.any (fun p => p.1 == 8 * n + j)))
    t.setEreg e ⟨bits, true, words.foldl (fun p n => p &&& ~~~(BitVec.twoPow 32 n)) f.poison⟩

/-- Set the tag of every register of a group, and their dirty marks (06 R124, 04 R106). -/
def Thread.setTag (t : Thread) (r : VReg) (grouping : Nat) (tag : BitVec 4) : Thread :=
  (List.range grouping).foldl (fun t k => t.setVreg (r.toNat + k) { t.vreg (r.toNat + k) with tag := tag, dirty := true }) t

/-- The scalar value of an x operand for a format (08 R169). -/
def scalarFor (f : Fmt) (x : Word) : Nat := x.toNat % 2 ^ f.width

/-- Whether the instruction performs element i (06 R121 and the replay of 04 R96), for e elements to the group: any element of a
group other than the one that holds its first element, and there the elements from it on; and elements that stand again. -/
def Work.takes (w : Work) (i : Nat) : Bool :=
  i / w.vt.perGroup != w.vstart / w.vt.perGroup || decide (w.vstart ≤ i) || decide (w.low ≤ i ∧ i < w.upto)

/-- Physical lane of logical lane l (06 R115). -/
def Thread.physLane (t : Thread) (l : Nat) : Nat := (bitsOf t.lmask).getD l 0

/-- Where a memory element may lie: anywhere (vld, vst, streams), the scratchpad and lane windows (vldx, vstx), not in a window
(the Awl), not in a lane slice (engines of the thread that belong to no lane), or neither in a lane slice nor remote (tiles). -/
inductive Reach where
  | plain | scratch | awl | engine | tile
  deriving DecidableEq, Repr

/-- The checks of 09 R197 but poison, on one element: alignment, page, permission and region; routes (21 R382). -/
def State.checkElem (s : State) (acc : Acc) (lane : Nat) (reach : Reach) (va : Word) (size : Nat) : Except Bad Xlat :=
  if va.toNat % size ≠ 0 then .error ⟨cMisaligned, detailOf acc (s.peekRemote s.env va)⟩
  else
    match s.translate s.env acc (if reach == .tile || reach == .engine then none else some (s.me.physLane lane)) va with
    | .error b => .error b
    | .ok x =>
      let inWin := decide (windowRegion ≤ va.toNat)
      let inScratch := inWin && decide (va.toNat < winCap)
      match x.place with
      | .far pkg _ =>
        if reach == .tile || reach == .scratch || !s.reaches pkg then .error ⟨cAccess, detailOf acc true⟩ else .ok x
      | _ =>
        if (reach == .scratch && !inScratch) || (reach == .awl && inWin) then .error ⟨cAccess, detailOf acc false⟩ else .ok x

/-- Masked bytes of the thread that its lane's store buffer holds before a window place (06 R135), oldest first. -/
def Thread.heldBytes (t : Thread) (place lane : Nat) : List MaskedByte :=
  ((t.st.flatten ++ (t.win.take place).flatMap (·.held)).filter (fun h => h.lane == lane)).flatMap (·.near)

/-- Lay held bytes over bytes read at a home address. -/
def overlay (held : List MaskedByte) (h : Nat) (bs : List Byte) : List Byte :=
  held.foldl (fun l b =>
    if h ≤ b.addr ∧ b.addr < h + l.length then l.set (b.addr - h) (mergeByte b (l.getD (b.addr - h) 0)) else l) bs

/-- The ordering kind of an access: that of its page, 3 for a lane slice (11 R245, R248). -/
def Xlat.order (x : Xlat) : BitVec 2 := x.kind.getD 3

/-- Whether vector accesses of a kind of reach may go through the data L1 (06 R140). -/
def Reach.cached : Reach → Bool
  | .plain | .scratch => true
  | _ => false

/-- Read one element from memory (09 R197 to R200): its bytes, or why it cannot be read now. Its address depends on a load of TIME
`since` (11 R249). -/
def State.getElem (s : State) (place lane since : Nat) (reach : Reach) (va : Word) (size : Nat) : Except Miss (List Byte) :=
  match s.checkElem .load lane reach va size with
  | .error b => .error (.bad b va)
  | .ok x =>
    match x.place with
    | .near h =>
      if s.mem.isEmptyAt h size then .error .wait
      else
        let held := if reach.cached then s.me.heldBytes place lane else []
        let all := (List.range size).all (fun k => held.any (fun b => b.addr == h + k && b.mask == 0xFF))
        if (s.mem.poisonAt h size).isSome && !all then .error (.bad ⟨cPoison, 0⟩ (va &&& ~~~7))
        else .ok (overlay held h (s.mem.seenBytes (if x.cached && reach.cached then some (s.me.core, since) else none) h size))
    | .cap o => .ok (s.capBytes o size)
    | .far pkg addr =>
      match s.me.remote.find? (fun r => r.pkg == pkg && r.addr == addr && r.size == size) with
      | some r =>
        match r.reply with
        | .data l => if l.any (·.2) then .error (.bad ⟨cPoison, 0⟩ (va &&& ~~~7)) else .ok (l.map (·.1))
        | .denied => .error (.bad ⟨cAccess, 2⟩ va)
        | .lost => .error (.bad ⟨cPeerLost, BitVec.ofNat 12 pkg⟩ va)
        | .none => .error .wait
      | none => .error .wait

/-- Bytes an element writes, with the package they go to (none: this one). -/
abbrev Out1 := List (Option Nat × MaskedByte)

/-- The micro-TLB in the path of an element: its lane's, or that of the access processor (log 8). -/
def Thread.agentOf (t : Thread) (lane : Nat) (reach : Reach) : Option Nat :=
  if reach == .tile || reach == .engine then none else some (t.physLane lane)

/-- Memory after reads of a lane or an engine: a line that came through the data L1 stays there, any other read drops the core's copy of its line, so
that none of its later reads goes backwards (06 R140, 11 R243); lines of the host window are held (20 R354). -/
def State.touchReads (s : State) (lane since : Nat) (reach : Reach) (reads : List (Word × Nat)) : State :=
  reads.foldl (fun s r =>
    match s.checkElem .load lane reach r.1 r.2 with
    | .ok ⟨.near h, _, c⟩ => (s.afterRead (c && reach.cached) since h).hit (s.me.agentOf lane reach) r.1
    | _ => s) s

/-- Check one element of a store and form its bytes, with the ordering kind of the access (09 R197, R198): `mask` is the part of each byte
written. -/
def State.putElem (s : State) (lane : Nat) (reach : Reach) (va : Word) (bs : List Byte) (mask : Byte) : Except Miss (BitVec 2 × Out1) :=
  match s.checkElem .store lane reach va bs.length with
  | .error b => .error (.bad b va)
  | .ok x =>
    let lay (a : Nat) : List MaskedByte := (List.range bs.length).map (fun k => ⟨a + k, bs.getD k 0, mask⟩)
    match x.place with
    | .near h => .ok (x.order, (lay h).map (fun b => (none, b)))
    | .cap _ => .error (.bad ⟨cAccess, detailOf .store false⟩ va)
    | .far pkg addr => .ok (x.order, (lay addr).map (fun b => (some pkg, b)))

/-- Where remote reads go: package, address, size. -/
def State.farReads (s : State) (lane : Nat) (reach : Reach) (reads : List (Word × Nat)) : List (Nat × Nat × Nat) :=
  reads.filterMap (fun r =>
    match s.checkElem .load lane reach r.1 r.2 with
    | .ok ⟨.far pkg addr, _, _⟩ => some (pkg, addr, r.2)
    | _ => none)

/-- Send the requests of remote reads that have not been sent (21 R383, R384). -/
def State.askAll (s : State) (reads : List (Nat × Nat × Nat)) : State :=
  (requestsOf (reads.eraseDups.filter (fun r => !s.me.remote.any (fun q => q.pkg == r.1 && q.addr == r.2.1 && q.size == r.2.2)))).foldl
    (fun s c => s.askList c.1 c.2) s

def State.askFar (s : State) (lane : Nat) (reach : Reach) (reads : List (Word × Nat)) : State := s.askAll (s.farReads lane reach reads)

/-- Replies that have served are forgotten (21 R384). -/
def State.dropReplies (s : State) (reads : List (Nat × Nat × Nat)) : State :=
  { s with me := { s.me with remote := s.me.remote.filter (fun q => !reads.contains (q.pkg, q.addr, q.size)) } }

end Sys2Proof.Machine
end

