-- ==== Sys2Proof/Machine/Streams.lean ====
section
/-!
DEFINITION. Stream and fibre engines (09 R202 to R215): descriptors, positions, pops, pushes, the control forms and saved states.
-/
namespace Sys2Proof.Machine

/-- Fields of a stream descriptor (09 R202). -/
def sdBase (d : BitVec 512) : Word := d.extractLsb' 0 64
def sdState (d : BitVec 512) : Word := d.extractLsb' 64 64
def sdN0 (d : BitVec 512) : Nat := (d.extractLsb' 128 32).toNat
def sdN1 (d : BitVec 512) : Nat := (d.extractLsb' 160 32).toNat
def sdN2 (d : BitVec 512) : Nat := (d.extractLsb' 192 32).toNat
def sdMode (d : BitVec 512) : BitVec 32 := d.extractLsb' 224 32
def sdS0 (d : BitVec 512) : Word := d.extractLsb' 256 64
def sdS1 (d : BitVec 512) : Word := d.extractLsb' 320 64
def sdS2 (d : BitVec 512) : Word := d.extractLsb' 384 64
def sdIbase (d : BitVec 512) : Word := d.extractLsb' 448 64
def sdDir (d : BitVec 512) : Bool := (sdMode d).getLsbD 0
def sdCmp (d : BitVec 512) : Bool := (sdMode d).getLsbD 1
def sdInd (d : BitVec 512) : Bool := (sdMode d).getLsbD 2
def sdIsz (d : BitVec 512) : Nat := if (sdMode d).getLsbD 3 then 8 else 4
def sdTag (d : BitVec 512) : BitVec 4 := (sdMode d).extractLsb' 4 4
def sdDims (d : BitVec 512) : Nat := ((sdMode d).extractLsb' 8 2).toNat
def sdIsh (d : BitVec 512) : Nat := ((sdMode d).extractLsb' 10 4).toNat

/-- Element formats a stream may have: tag codes 1 to 6 and 9 to 12 (09 R202, R212). -/
def streamTag (t : BitVec 4) : Bool := decide ((1 ≤ t.toNat ∧ t.toNat ≤ 6) ∨ (9 ≤ t.toNat ∧ t.toNat ≤ 12))

/-- T (09 R203). -/
def sdT (d : BitVec 512) : Nat :=
  if sdInd d then sdN0 d
  else if sdDims d = 1 then sdN0 d
  else if sdDims d = 2 then sdN0 d * sdN1 d
  else sdN0 d * sdN1 d * sdN2 d

/-- A stream descriptor that breaks neither R202 nor R203. -/
def sdValid (d : BitVec 512) : Bool :=
  sdState d == 0 && (sdMode d).extractLsb' 14 18 == 0 && sdDims d != 0 && streamTag (sdTag d) && decide (sdT d < 2 ^ 32)

/-- Fields of a fibre descriptor (09 R212). -/
def fdRowptr (d : BitVec 512) : Word := d.extractLsb' 0 64
def fdState (d : BitVec 512) : Word := d.extractLsb' 64 64
def fdCidx (d : BitVec 512) : Word := d.extractLsb' 128 64
def fdVals (d : BitVec 512) : Word := d.extractLsb' 192 64
def fdCntp (d : BitVec 512) : Word := d.extractLsb' 256 64
def fdRow0 (d : BitVec 512) : Nat := (d.extractLsb' 320 32).toNat
def fdRows (d : BitVec 512) : Nat := (d.extractLsb' 352 32).toNat
def fdMode (d : BitVec 512) : BitVec 32 := d.extractLsb' 384 32
def fdTag (d : BitVec 512) : BitVec 4 := (fdMode d).extractLsb' 0 4
def fdCntm (d : BitVec 512) : Bool := (fdMode d).getLsbD 4

def fdValid (d : BitVec 512) : Bool :=
  fdState d == 0 && streamTag (fdTag d) && (fdMode d).extractLsb' 5 27 == 0 && d.extractLsb' 416 96 == 0

/-- Width in bits of a tag code (07 R142). -/
def tagWidth (t : BitVec 4) : Nat :=
  match Fmt.ofCode t with
  | some f => f.width
  | none => 0

/-- The streams of a thread by number. -/
def Thread.stream (t : Thread) (n : Nat) : Stream := t.streams[n % 4]'(by omega)
def Thread.setStream (t : Thread) (n : Nat) (st : Stream) : Thread := { t with streams := t.streams.set (n % 4) st (by omega) }

/-- The even stream of a pair. -/
def evenOf (n : Nat) : Nat := n / 2 * 2

/-- The tag a port delivers (09 R207, R213). -/
def Thread.portTag (t : Thread) (n : Nat) : BitVec 4 :=
  if (t.stream n).fib then (if (t.stream n).odd then fdTag (t.stream (evenOf n)).desc else Fmt.int32.code) else sdTag (t.stream n).desc

/-- Row bounds of an open fibre: start of its first row, start and length of the current one (09 R213). -/
def Stream.start0 (st : Stream) : Nat := st.rows.getD 0 0
def Stream.start (st : Stream) : Nat := st.rows.getD 1 0
def Stream.length (st : Stream) : Nat := st.rows.getD 2 0

/-- Position of a port: elements popped or pushed. -/
def Thread.portPos (t : Thread) (n : Nat) : Nat :=
  let st := t.stream n
  if st.fib then (if st.odd then (t.stream (evenOf n)).po else (t.stream (evenOf n)).pe) else st.pos

/-- The position at which a port ends: T, or the length of the row. -/
def Thread.portEnd (t : Thread) (n : Nat) : Nat :=
  let st := t.stream n
  if st.fib then (t.stream (evenOf n)).length else sdT st.desc

/-- Whether a port packs active elements (09 R207); a fibre never does. -/
def Thread.portCmp (t : Thread) (n : Nat) : Bool := !(t.stream n).fib && sdCmp (t.stream n).desc

/-- ESTREAM (04 R99). -/
def estreamOf (fib : Bool) (n pos : Nat) : Word :=
  BitVec.ofBool true ++ BitVec.ofBool fib ++ 0#28 ++ BitVec.ofNat 2 n ++ BitVec.ofNat 32 pos

/-- ESTREAM of a fault at position p of a port (09 R210, R213). -/
def Thread.portFault (t : Thread) (n p : Nat) : Word :=
  let st := t.stream n
  if st.fib then
    let ev := t.stream (evenOf n)
    estreamOf true (evenOf n) ((ev.start + p) % 2 ^ 32 + 2 ^ 32 - ev.start0 % 2 ^ 32)
  else estreamOf false n p

/-- A stream error (04 R98 code 0x0C). -/
def streamError (reason : Nat) (fib : Bool) (n pos : Nat) : Fail :=
  ⟨cStream, srcStream, BitVec.ofNat 12 reason, 0, estreamOf fib n pos⟩

/-- Whether stream n is a fibre whose new row a control form in the window has still to read: what stands in it is not known at issue. -/
def Thread.rowOpen (t : Thread) (n : Nat) : Bool := (t.stream n).fib && decide ((t.stream (evenOf n)).rows.length < 3)

/-- A stream error that concerns stream n: its fibre, by the even stream of the pair, where it is half of one or the form is a fibre form
(04 R99). A control form has no faulting element: POS is where the stream stands (log 36). -/
def Thread.errorAt (t : Thread) (reason n : Nat) (fibre : Bool) : Fail :=
  let st := t.stream n
  let at' : Nat := if st.opened then t.portPos n else 0
  ⟨cStream, srcStream, BitVec.ofNat 12 reason, 0,
    if st.fib then t.portFault n at' else estreamOf fibre (if fibre then evenOf n else n) at'⟩

/-- Address of position n of a stream in direct mode (09 R203). -/
def sdAddress (d : BitVec 512) (n : Nat) : Word :=
  let dim (k c : Nat) (st : Word) : Word := if k < sdDims d then BitVec.ofNat 64 c * st else 0
  sdBase d + dim 0 (n % sdN0 d) (sdS0 d) + dim 1 (n / sdN0 d % sdN1 d) (sdS1 d)
    + dim 2 (n / (sdN0 d * sdN1 d)) (sdS2 d)

/-- Address of a fibre element (09 R213). -/
def Thread.fibreAddress (t : Thread) (n p : Nat) : Word :=
  let ev := t.stream (evenOf n)
  let k := ev.start + p
  if (t.stream n).odd then fdVals ev.desc + BitVec.ofNat 64 (k * (tagWidth (fdTag ev.desc) / 8))
  else fdCidx ev.desc + BitVec.ofNat 64 (4 * k)

/-- Whether a port reads an index for each element (09 R203). -/
def Thread.portIndirect (t : Thread) (n : Nat) : Bool := !(t.stream n).fib && sdInd (t.stream n).desc

/-- Address of a position below the end: in indirect mode its index is read first, by the lane as a vector element is, or by the stream
engine that reads ahead (09 R203, R209). -/
def State.portAddress (s : State) (place lane since : Nat) (reach : Reach) (n p : Nat) : Except Stop Word :=
  let st := s.me.stream n
  if st.fib then .ok (s.me.fibreAddress n p)
  else if sdInd st.desc then
    match s.getElem place lane since reach (sdIbase st.desc + BitVec.ofNat 64 (p * sdIsz st.desc)) (sdIsz st.desc) with
    | .error m => .error (m.stop srcStream (s.me.portFault n p))
    | .ok l => .ok (sdBase st.desc + BitVec.ofNat 64 (leNat l * 2 ^ sdIsh st.desc))
  else .ok (sdAddress st.desc p)

/-- TIME of the youngest load that the address of an element of a port depends on: its index is one (11 R249). -/
def State.portSince (s : State) (since n : Nat) : Nat := if s.me.portIndirect n then s.time + 1 else since

/-- Bytes of one element of a port. -/
def Thread.portSize (t : Thread) (n : Nat) : Nat := tagWidth (t.portTag n) / 8

/-- Bits of an element of a port: bits [7:6] of a T6 element are zero (07 R143). -/
def Thread.portBits (t : Thread) (n bits : Nat) : Nat := if t.portTag n = Fmt.t6.code then bits % 64 else bits

/-- The bytes of the element at a position below the end: as they were read ahead (09 R209), or from memory. -/
def State.popBytes (s : State) (place lane since n p : Nat) : Except Stop (List Byte) :=
  match (s.me.stream n).ahead.find? (fun a => a.1 == p) with
  | some a => .ok a.2
  | none =>
    match s.portAddress place lane since .plain n p with
    | .error e => .error e
    | .ok va =>
      match s.getElem place lane (s.portSince since n) .plain va (s.me.portSize n) with
      | .error m => .error (m.stop srcStream (s.me.portFault n p))
      | .ok l => .ok l

/-- Read the element at a position (09 R207, R213): zero at or beyond the end; an element read ahead serves its pop (R209). -/
def State.popAt (s : State) (place lane since n p : Nat) : Except Stop Nat :=
  if s.me.portEnd n ≤ p then .ok 0 else (s.popBytes place lane since n p).map (fun l => s.me.portBits n (leNat l))

/-- Reads of memory that the element at a position makes (21 R383). -/
def State.popReads (s : State) (place lane n p : Nat) : List (Word × Nat) :=
  if s.me.portEnd n ≤ p || (s.me.stream n).ahead.any (fun a => a.1 == p) then []
  else
    let st := s.me.stream n
    let idx := if s.me.portIndirect n then [(sdIbase st.desc + BitVec.ofNat 64 (p * sdIsz st.desc), sdIsz st.desc)] else []
    idx ++ (match s.portAddress place lane 0 .plain n p with
      | .ok va => [(va, s.me.portSize n)]
      | .error _ => [])

/-- Number of indices below i with a property (09 R207). -/
def countBelow (p : Nat → Bool) (i : Nat) : Nat := ((List.range i).filter p).length

/-- The port a vector register name is, while its stream is open (09 R206). -/
def Thread.port (t : Thread) (r : VReg) : Option Nat :=
  if 28 ≤ r.toNat ∧ (t.stream (r.toNat - 28)).opened then some (r.toNat - 28) else none

/-- Move a port on by the positions an instruction consumed (09 R207, R208): never beyond the end. -/
def Thread.advancePort (t : Thread) (n count : Nat) : Thread :=
  let st := t.stream n
  if st.fib then
    let ev := t.stream (evenOf n)
    let go (p : Nat) : Nat := max p (min (p + count) ev.length)
    let t := t.setStream (evenOf n) (if st.odd then { ev with po := go ev.po } else { ev with pe := go ev.pe })
    t.setStream n { t.stream n with ahead := st.ahead.filter (fun a => decide (go (if st.odd then ev.po else ev.pe) ≤ a.1)) }
  else
    let p := min (st.pos + count) (sdT st.desc)
    t.setStream n { st with pos := p, ended := st.ended || decide (p = sdT st.desc), ahead := st.ahead.filter (fun a => p ≤ a.1) }

/-- Start and length of row q, read by the fibre engine (09 R213); a row past the last one has none. -/
def State.readRow (s : State) (place n : Nat) (d : BitVec 512) (q : Nat) : Except Stop (Nat × Nat) :=
  if fdRow0 d + fdRows d ≤ q then .ok (0, 0)
  else
    let bad := estreamOf true n (q - fdRow0 d)
    let read (a : Word) : Except Stop Nat :=
      match s.getElem place 0 0 .engine a 4 with
      | .error m => .error (m.stop srcStream bad)
      | .ok l => .ok (leNat l)
    match read (fdRowptr d + BitVec.ofNat 64 (4 * q)) with
    | .error e => .error e
    | .ok start =>
      if fdCntm d then
        match read (fdCntp d + BitVec.ofNat 64 (4 * q)) with
        | .error e => .error e
        | .ok len => .ok (start, len)
      else
        match read (fdRowptr d + BitVec.ofNat 64 (4 * (q + 1))) with
        | .error e => .error e
        | .ok next =>
          if next < start then .error (.fail (streamError 6 true n (q - fdRow0 d))) else .ok (start, next - start)

/-- Reads of a row's bounds, for requests to other packages. -/
def rowReads (d : BitVec 512) (q : Nat) : List (Word × Nat) :=
  if fdRow0 d + fdRows d ≤ q then []
  else [(fdRowptr d + BitVec.ofNat 64 (4 * q), 4),
    (if fdCntm d then fdCntp d + BitVec.ofNat 64 (4 * q) else fdRowptr d + BitVec.ofNat 64 (4 * (q + 1)), 4)]

/-- An open plain stream at a position. -/
def Stream.plainAt (d : BitVec 512) (pos : Nat) (ended : Bool) : Stream :=
  ⟨d, true, false, false, ended, pos, 0, 0, [], []⟩

/-- The two halves of an open fibre. -/
def Stream.fibreAt (d : BitVec 512) (row pe po : Nat) (rows : List Nat) : Stream :=
  ⟨d, true, true, false, decide (fdRows d ≤ row), row, pe, po, rows, []⟩
def Stream.oddHalf : Stream := ⟨0, true, true, true, false, 0, 0, 0, [], []⟩

/-- The effect of a control form on the streams, and the value stend and ftend return (09 R204, R205, R214). An empty row is at its end at
once, as its flags are recomputed on restore (R215); past the last row the flags stay clear. -/
def State.streamForm (s : State) (place : Nat) (op : EOp) (sc : Word) (desc : BitVec 512) : Except Stop (Thread × Word) :=
  let t := s.me
  match op with
  | .sopen n _ _ => .ok (t.setStream n.toNat (Stream.plainAt desc 0 (sdT desc == 0)), 0)
  | .sadv n _ =>
    let st := t.stream n.toNat
    if st.opened then .ok (t.advancePort n.toNat sc.toNat, 0) else .ok (t, 0)
  | .stend _ n =>
    let st := t.stream n.toNat
    .ok (t, if !st.opened || st.pos == sdT st.desc then 1 else 0)
  | .sclose n => .ok (t.setStream n.toNat Stream.closed, 0)
  | .fopen n _ _ =>
    match s.readRow place n.toNat desc (fdRow0 desc) with
    | .error e => .error e
    | .ok (a, len) =>
      .ok ((t.setStream n.toNat (Stream.fibreAt desc 0 0 0 [a, a, len])).setStream (n.toNat + 1) Stream.oddHalf, 0)
  | .fadv n =>
    let st := t.stream n.toNat
    if !st.opened || fdRows st.desc ≤ st.pos then .ok (t, 0)
    else
      match s.readRow place n.toNat st.desc (fdRow0 st.desc + st.pos + 1) with
      | .error e => .error e
      | .ok (a, len) =>
        .ok ((t.setStream n.toNat (Stream.fibreAt st.desc (st.pos + 1) 0 0 [st.start0, a, len])).setStream (n.toNat + 1) Stream.oddHalf, 0)
  | .ftend _ n =>
    let st := t.stream n.toNat
    if !st.opened then .ok (t, 7)
    else if fdRows st.desc ≤ st.pos then .ok (t, 4)
    else .ok (t, BitVec.ofNat 64 ((if st.length ≤ st.pe then 1 else 0) + (if st.length ≤ st.po then 2 else 0)))
  | .fclose n => .ok ((t.setStream n.toNat Stream.closed).setStream (n.toNat + 1) Stream.closed, 0)
  | _ => .ok (t, 0)

/-- Reads a control form makes when it is performed. -/
def Thread.formReads (t : Thread) (op : EOp) (desc : BitVec 512) : List (Word × Nat) :=
  match op with
  | .fopen _ _ _ => rowReads desc (fdRow0 desc)
  | .fadv n => let st := t.stream n.toNat; rowReads st.desc (fdRow0 st.desc + st.pos + 1)
  | _ => []

/-- What a control form in the window opens, closes and moves, as far as it is known before it is performed: the bounds of a fibre's new
row are not (09 R204, R205, R214). -/
def Thread.formNow (t : Thread) (e : Entry) : Thread :=
  match e.op with
  | .sopen n _ _ => t.setStream n.toNat (Stream.plainAt e.desc 0 (sdT e.desc == 0))
  | .sadv n _ => if (t.stream n.toNat).opened then t.advancePort n.toNat (e.scal.getD 0 0).toNat else t
  | .sclose n => t.setStream n.toNat Stream.closed
  | .fopen n _ _ => (t.setStream n.toNat (Stream.fibreAt e.desc 0 0 0 [])).setStream (n.toNat + 1) Stream.oddHalf
  | .fadv n =>
    let st := t.stream n.toNat
    if !st.opened || fdRows st.desc ≤ st.pos then t else t.setStream n.toNat (Stream.fibreAt st.desc (st.pos + 1) 0 0 [st.start0])
  | .fclose n => (t.setStream n.toNat Stream.closed).setStream (n.toNat + 1) Stream.closed
  | _ => t

/-- Checks at issue of a control form, on the streams as they stand there (09 R205, R210, R214). -/
def Thread.formCheck (t : Thread) (op : EOp) : Option Fail :=
  let plain (n : BitVec 2) : Option Fail := if (t.stream n.toNat).fib then some (t.errorAt 5 n.toNat false) else none
  let fibre (n : BitVec 2) (opening : Bool) : Option Fail :=
    let a := t.stream n.toNat
    let b := t.stream (n.toNat + 1)
    if n.toNat % 2 = 1 then some (t.errorAt 5 n.toNat true)
    else if opening then (if a.opened || b.opened then some (t.errorAt 1 n.toNat true) else none)
    else if (a.opened && !a.fib) || (b.opened && !b.fib) then some (t.errorAt 5 n.toNat true)
    else none
  match op with
  | .sopen n _ _ => if (t.stream n.toNat).opened then some (t.errorAt 1 n.toNat false) else none
  | .sadv n _ => plain n
  | .stend _ n => plain n
  | .sclose n => plain n
  | .fopen n _ _ => fibre n true
  | .fadv n => fibre n false
  | .ftend _ n => fibre n false
  | .fclose n => fibre n false
  | _ => none

/-- The 64-byte saved state of a stream (09 R211, R215). -/
def Thread.savedStream (t : Thread) (n : Nat) : BitVec 512 :=
  let st := t.stream n
  if !st.opened then 0
  else if st.odd then BitVec.ofNat 512 ((2 ^ 32 + 2 ^ 34 + 2 ^ 35) * 2 ^ 64)
  else
    let state := st.pos % 2 ^ 32 + 2 ^ 32 + (if st.ended then 2 ^ 33 else 0) + (if st.fib then 2 ^ 34 else 0)
    let d := (st.desc &&& ~~~(BitVec.ofNat 512 ((2 ^ 64 - 1) * 2 ^ 64))) ||| BitVec.ofNat 512 (state * 2 ^ 64)
    if st.fib then
      (d &&& BitVec.ofNat 512 (2 ^ 448 - 1)) ||| BitVec.ofNat 512 ((st.pe % 2 ^ 32 + st.po % 2 ^ 32 * 2 ^ 32) * 2 ^ 448)
    else d

/-- Restore stream n of an image; the bounds of a fibre's row are read again (09 R211, R215). `img` holds the four states. -/
def State.restoreStream (s : State) (img : Nat → BitVec 512) (n : Nat) : Except Stop Stream :=
  let d := img n
  let state := sdState d
  if !state.getLsbD 32 then .ok Stream.closed
  else if state.getLsbD 35 then .ok Stream.oddHalf
  else if state.getLsbD 34 then
    let clean := d &&& ~~~(BitVec.ofNat 512 ((2 ^ 64 - 1) * 2 ^ 64)) &&& BitVec.ofNat 512 (2 ^ 448 - 1)
    let row := (state.extractLsb' 0 32).toNat
    match s.readRow 0 n clean (fdRow0 clean) with
    | .error e => .error e
    | .ok (a0, _) =>
      match s.readRow 0 n clean (fdRow0 clean + row) with
      | .error e => .error e
      | .ok (a, len) =>
        .ok (Stream.fibreAt clean row (d.extractLsb' 448 32).toNat (d.extractLsb' 480 32).toNat [a0, a, len])
  else
    let clean := d &&& ~~~(BitVec.ofNat 512 ((2 ^ 64 - 1) * 2 ^ 64))
    .ok (Stream.plainAt clean (state.extractLsb' 0 32).toNat (state.getLsbD 33))

/-- Elements remaining in a stream, for setvl (03 R87, 09 R213). -/
def Thread.remaining (t : Thread) (n : Nat) : Nat :=
  if (t.stream n).opened then t.portEnd n - t.portPos n else 0

end Sys2Proof.Machine
end

