-- ==== Sys2Proof/Machine/Shapes.lean ====
section
/-!
DEFINITION. What each execute-class operation names and needs: captured scalars (04 R107), registers read and written, widths
(08 R170), tags (06 R124, 08 R173), and the checks at issue (08 R171, 09 R206 to R210, 10 R232).
-/
namespace Sys2Proof

open Machine

def VSrc.vregs : VSrc → List VReg
  | .vec r => [r]
  | .scalar _ => []
def VSrc.xregs : VSrc → List XReg
  | .vec _ => []
  | .scalar r => [r]

/-- x registers whose values an operation captures at issue, in the order of its operands (01 R19, 04 R107). -/
def EOp.xs : EOp → List XReg
  | .vaddFp _ _ _ _ _ b | .vsubFp _ _ _ _ _ b | .vmulFp _ _ _ _ _ b | .vdiv _ _ _ _ _ b | .vfma _ _ _ _ _ b
  | .vfnma _ _ _ _ _ b | .vminFp _ _ _ _ _ b | .vmaxFp _ _ _ _ _ b | .vcmpFp _ _ _ _ _ b | .vcmpInt _ _ _ _ _ b => b.xregs
  | .vsgn _ _ _ _ b | .vsgnn _ _ _ _ b | .vsgnx _ _ _ _ b | .vaddInt _ _ _ _ b | .vsubInt _ _ _ _ b | .vaddSat _ _ _ _ b
  | .vsubSat _ _ _ _ b | .vmulInt _ _ _ _ b | .vmulh _ _ _ _ b | .vmadd _ _ _ _ b | .vminInt _ _ _ _ b | .vmaxInt _ _ _ _ b
  | .vsll _ _ _ _ b | .vsrl _ _ _ _ b | .vsra _ _ _ _ b => b.xregs
  | .vand _ _ _ b | .vor _ _ _ b | .vxor _ _ _ b => b.xregs
  | .vbcast _ _ _ a => [a]
  | .vmvx _ _ _ b => [b]
  | .vrngN32 _ _ a b => [a, b]
  | .vld _ _ _ a _ | .vst _ _ _ _ a _ => [a]
  | .vlds _ _ _ a b _ | .vsts _ _ _ _ a b _ => [a, b]
  | .vldx _ _ _ a _ _ _ | .vstx _ _ _ _ a _ _ _ => [a]
  | .vgath _ _ _ a _ _ _ | .vscat _ _ _ a _ _ _ | .vscadd _ _ _ a _ _ _ => [a]
  | .sopen _ a _ | .fopen _ a _ => [a]
  | .sadv _ a => [a]
  | .vgamWr _ a => [a]
  | .vred _ _ _ _ _ b | .vscan _ _ _ _ _ _ b => [b]
  | .vslideUp _ _ _ b | .vslideDn _ _ _ b => [b]
  | .plpack _ _ _ _ _ a _ c => [a, c]
  | .plunpk _ _ _ a c => [a, c]
  | .mma _ _ _ _ a b c => [a, b, c]
  | .mld _ a b _ | .mst _ a b _ => [a, b]
  | _ => []

/-- Vector registers (groups) an operation reads; a destination that is also an addend is among them. -/
def EOp.vreads : EOp → List VReg
  | .vaddFp _ _ _ _ a b | .vsubFp _ _ _ _ a b | .vmulFp _ _ _ _ a b | .vdiv _ _ _ _ a b
  | .vminFp _ _ _ _ a b | .vmaxFp _ _ _ _ a b | .vcmpFp _ _ _ _ a b | .vcmpInt _ _ _ _ a b => a :: b.vregs
  | .vfma _ _ _ d a b | .vfnma _ _ _ d a b => a :: (b.vregs ++ [d])
  | .vsqrt _ _ _ _ a => [a]
  | .vsgn _ _ _ a b | .vsgnn _ _ _ a b | .vsgnx _ _ _ a b | .vaddInt _ _ _ a b | .vsubInt _ _ _ a b | .vaddSat _ _ _ a b
  | .vsubSat _ _ _ a b | .vmulInt _ _ _ a b | .vmulh _ _ _ a b | .vminInt _ _ _ a b | .vmaxInt _ _ _ a b
  | .vsll _ _ _ a b | .vsrl _ _ _ a b | .vsra _ _ _ a b => a :: b.vregs
  | .vmadd _ _ d a b => a :: (b.vregs ++ [d])
  | .vscl _ _ _ _ a _ => [a]
  | .vand _ _ a b | .vor _ _ a b | .vxor _ _ a b => a :: b.vregs
  | .vmv _ _ a => [a]
  | .vmvx _ _ a _ => [a]
  | .vcvt _ _ _ _ _ _ a => [a]
  | .vsegmax _ _ _ a => [a]
  | .vsalsel _ _ _ _ a b => [a, b]
  | .vst _ _ _ d _ _ => [d]
  | .vsts _ _ _ d _ _ _ => [d]
  | .vldx _ _ _ _ b _ _ => [b]
  | .vstx _ _ _ d _ b _ _ => [d, b]
  | .vgath _ _ _ _ b _ _ => [b]
  | .vscat _ _ d _ b _ _ | .vscadd _ _ d _ b _ _ => [d, b]
  | .vred _ _ _ _ a _ => [a]
  | .vscan _ _ _ _ _ a _ => [a]
  | .vperm _ _ a b => [a, b]
  | .vslideUp _ _ a _ | .vslideDn _ _ a _ => [a]
  | .vcompress _ _ a => [a]
  | .plpack _ _ _ _ d _ _ _ => [d]
  | _ => []

/-- The vector register (group) an operation writes. -/
def EOp.vwrites : EOp → Option VReg
  | .vaddFp _ _ _ d _ _ | .vsubFp _ _ _ d _ _ | .vmulFp _ _ _ d _ _ | .vdiv _ _ _ d _ _ | .vsqrt _ _ _ d _
  | .vfma _ _ _ d _ _ | .vfnma _ _ _ d _ _ | .vminFp _ _ _ d _ _ | .vmaxFp _ _ _ d _ _ => some d
  | .vsgn _ _ d _ _ | .vsgnn _ _ d _ _ | .vsgnx _ _ d _ _ | .vaddInt _ _ d _ _ | .vsubInt _ _ d _ _ | .vaddSat _ _ d _ _
  | .vsubSat _ _ d _ _ | .vmulInt _ _ d _ _ | .vmulh _ _ d _ _ | .vmadd _ _ d _ _ | .vminInt _ _ d _ _ | .vmaxInt _ _ d _ _
  | .vsll _ _ d _ _ | .vsrl _ _ d _ _ | .vsra _ _ d _ _ | .vid _ _ d => some d
  | .vscl _ _ _ d _ _ => some d
  | .vand _ d _ _ | .vor _ d _ _ | .vxor _ d _ _ | .vmv _ d _ => some d
  | .vbcast _ _ d _ => some d
  | .vcvt _ _ _ _ _ d _ => some d
  | .vrngN32 _ d _ _ => some d
  | .vld _ _ d _ _ | .vlds _ _ d _ _ _ | .vldx _ _ d _ _ _ _ | .vgath _ _ d _ _ _ _ => some d
  | .vscan _ _ _ _ d _ _ => some d
  | .vperm _ d _ _ | .vslideUp _ d _ _ | .vslideDn _ d _ _ | .vcompress _ d _ => some d
  | .plunpk _ _ d _ _ => some d
  | .vgamWr d _ => some d
  | _ => none

/-- The mask register of an operation and its zeroing bit (02 R36); k0 where it takes none. -/
def EOp.mask : EOp → KReg × Bool
  | .vaddFp _ m _ _ _ _ | .vsubFp _ m _ _ _ _ | .vmulFp _ m _ _ _ _ | .vdiv _ m _ _ _ _ | .vsqrt _ m _ _ _
  | .vfma _ m _ _ _ _ | .vfnma _ m _ _ _ _ | .vminFp _ m _ _ _ _ | .vmaxFp _ m _ _ _ _ => (m.k, m.z)
  | .vcmpFp _ _ m _ _ _ | .vcmpInt _ _ m _ _ _ => (m.k, m.z)
  | .vsgn _ m _ _ _ | .vsgnn _ m _ _ _ | .vsgnx _ m _ _ _ | .vaddInt _ m _ _ _ | .vsubInt _ m _ _ _ | .vaddSat _ m _ _ _
  | .vsubSat _ m _ _ _ | .vmulInt _ m _ _ _ | .vmulh _ m _ _ _ | .vmadd _ m _ _ _ | .vminInt _ m _ _ _ | .vmaxInt _ m _ _ _
  | .vsll _ m _ _ _ | .vsrl _ m _ _ _ | .vsra _ m _ _ _ | .vid _ m _ => (m.k, m.z)
  | .vscl _ _ m _ _ _ => (m.k, m.z)
  | .vand m _ _ _ | .vor m _ _ _ | .vxor m _ _ _ | .vmv m _ _ => (m.k, m.z)
  | .vbcast _ m _ _ => (m.k, m.z)
  | .vcvt m _ _ _ _ _ _ => (m.k, m.z)
  | .vsegmax _ k _ _ => (k, false)
  | .vsalsel _ _ m _ _ _ => (m.k, m.z)
  | .vrngN32 m _ _ _ => (m.k, m.z)
  | .vld _ m _ _ _ | .vlds _ m _ _ _ _ | .vldx _ m _ _ _ _ _ | .vgath _ m _ _ _ _ _ => (m.k, m.z)
  | .vst _ k _ _ _ _ | .vsts _ k _ _ _ _ _ | .vstx _ k _ _ _ _ _ _ => (k, false)
  | .vscat _ k _ _ _ _ _ | .vscadd _ k _ _ _ _ _ => (k, false)
  | .vred _ _ k _ _ _ => (k, false)
  | .vscan _ _ _ m _ _ _ => (m.k, m.z)
  | .vperm m _ _ _ | .vslideUp m _ _ _ | .vslideDn m _ _ _ => (m.k, m.z)
  | .vcompress k _ _ => (k, false)
  | .plpack _ k _ _ _ _ _ _ => (k, false)
  | .plunpk m _ _ _ _ => (m.k, m.z)
  | _ => (0, false)

/-- Mask registers read besides the mask operand, and the one written. -/
def EOp.kreads : EOp → List KReg
  | .kand _ a b | .kor _ a b | .kxor _ a b | .kandn _ a b => [a, b]
  | .knot _ a => [a]
  | .kpopc _ a | .kfirst _ a => [a]
  | op => if op.mask.1 = 0 then [] else [op.mask.1]

def EOp.kwrites : EOp → Option KReg
  | .vcmpFp _ _ _ d _ _ | .vcmpInt _ _ _ d _ _ => some d
  | .vsalsel _ _ _ d _ _ => some d
  | .kand d _ _ | .kor d _ _ | .kxor d _ _ | .kandn d _ _ | .knot d _ | .kset d => some d
  | _ => none

/-- The scale register read, and the one written. -/
def EOp.ereads : EOp → Option EReg
  | .vscl _ _ _ _ _ b => some b
  | .plpack _ _ _ _ _ _ b _ => some b
  | _ => none
def EOp.ewrites : EOp → Option EReg
  | .vsegmax _ _ d _ => some d
  | _ => none

/-- The x register a returned value goes to (01 R21). -/
def EOp.returns : EOp → Option XReg
  | .vmvx _ d _ _ => some d
  | .stend d _ | .ftend d _ => some d
  | .vgamRd d _ => some d
  | .vred _ _ _ d _ _ => some d
  | .kpopc d _ | .kfirst d _ => some d
  | _ => none

/-- Opcode groups. -/
def EOp.isForm : EOp → Bool
  | .sopen _ _ _ | .sadv _ _ | .stend _ _ | .sclose _ | .fopen _ _ _ | .fadv _ | .ftend _ _ | .fclose _ => true
  | _ => false
def EOp.isMatrix : EOp → Bool
  | .plpack _ _ _ _ _ _ _ _ | .plunpk _ _ _ _ _ | .mma _ _ _ _ _ _ _ | .mzero _ | .mld _ _ _ _ | .mst _ _ _ _ => true
  | _ => false
def EOp.isTile : EOp → Bool
  | .mma _ _ _ _ _ _ _ | .mzero _ | .mld _ _ _ _ | .mst _ _ _ _ => true
  | _ => false
/-- OP 0xC0 to 0xC5 (06 R128, 09 R216). -/
def EOp.isMeeting : EOp → Bool
  | .vred _ _ _ _ _ _ | .vscan _ _ _ _ _ _ _ | .vperm _ _ _ _ | .vslideUp _ _ _ _ | .vslideDn _ _ _ _ | .vcompress _ _ _
  | .kpopc _ _ | .kfirst _ _ => true
  | _ => false
def EOp.isRendezvous (op : EOp) : Bool := op.isMeeting || op.isMatrix
def EOp.isGam : EOp → Bool
  | .vgamRd _ _ | .vgamWr _ _ => true
  | _ => false
def EOp.isLoad : EOp → Bool
  | .vld _ _ _ _ _ | .vlds _ _ _ _ _ _ | .vldx _ _ _ _ _ _ _ | .vgath _ _ _ _ _ _ _ => true
  | _ => false
def EOp.isStore : EOp → Bool
  | .vst _ _ _ _ _ _ | .vsts _ _ _ _ _ _ _ | .vstx _ _ _ _ _ _ _ _ | .vscat _ _ _ _ _ _ _ | .vscadd _ _ _ _ _ _ _ => true
  | _ => false
/-- Gathers, scatters and scatter-adds (18 R321). -/
def EOp.isAwl : EOp → Bool
  | .vgath _ _ _ _ _ _ _ | .vscat _ _ _ _ _ _ _ | .vscadd _ _ _ _ _ _ _ => true
  | _ => false

/-- FL of a store (09 R195). -/
def EOp.fill : EOp → Bool
  | .vst _ _ fl _ _ _ => fl
  | .vsts _ _ fl _ _ _ _ => fl
  | .vstx _ _ fl _ _ _ _ _ => fl
  | _ => false

/-- The format whose width WID must equal (08 R170, 06 R120): none where no width is checked. -/
def EOp.widthFmt : EOp → Option Fmt
  | .vaddFp ty _ _ _ _ _ | .vsubFp ty _ _ _ _ _ | .vmulFp ty _ _ _ _ _ | .vdiv ty _ _ _ _ _ | .vsqrt ty _ _ _ _
  | .vfma ty _ _ _ _ _ | .vfnma ty _ _ _ _ _ | .vminFp ty _ _ _ _ _ | .vmaxFp ty _ _ _ _ _ => some ty.fmt
  | .vcmpFp _ ty _ _ _ _ | .vcmpInt _ ty _ _ _ _ => some ty.fmt
  | .vsgn ty _ _ _ _ | .vsgnn ty _ _ _ _ | .vsgnx ty _ _ _ _ | .vaddInt ty _ _ _ _ | .vsubInt ty _ _ _ _ | .vaddSat ty _ _ _ _
  | .vsubSat ty _ _ _ _ | .vmulInt ty _ _ _ _ | .vmulh ty _ _ _ _ | .vmadd ty _ _ _ _ | .vminInt ty _ _ _ _ | .vmaxInt ty _ _ _ _
  | .vsll ty _ _ _ _ | .vsrl ty _ _ _ _ | .vsra ty _ _ _ _ | .vid ty _ _ => some ty.fmt
  | .vscl _ ty _ _ _ _ => some ty.fmt
  | .vbcast ty _ _ _ => some ty.fmt
  | .vmvx ty _ _ _ => some ty.fmt
  | .vcvt _ _ _ dst _ _ _ => some dst.fmt
  | .vsegmax ty _ _ _ => some ty.fmt
  | .vsalsel _ ty _ _ _ _ => some ty.fmt
  | .vrngN32 _ _ _ _ => some .int32
  | .vld ty _ _ _ _ | .vst ty _ _ _ _ _ | .vlds ty _ _ _ _ _ | .vsts ty _ _ _ _ _ _ | .vldx ty _ _ _ _ _ _
  | .vstx ty _ _ _ _ _ _ _ => some ty.fmt
  | .vgath ty _ _ _ _ _ _ | .vscat ty _ _ _ _ _ _ | .vscadd ty _ _ _ _ _ _ => some ty.fmt
  | .vred _ ty _ _ _ _ => some ty.fmt
  | .vscan _ _ ty _ _ _ _ => some ty.fmt
  | .plpack ty _ _ _ _ _ _ _ => some ty.fmt
  | .plunpk _ _ _ _ _ => some .fp32
  | _ => none

/-- The integer tag of a width (09 R196): 9 to 12 for WID 1 to 4. -/
def indexTag (v : VType) : BitVec 4 := BitVec.ofNat 4 (8 + v.wid.toNat)

/-- Tags an operation requires of vector sources (06 R124): the register and the tag. Untyped operations require none here. -/
def EOp.tagNeeds (op : EOp) (v : VType) : List (VReg × BitVec 4) :=
  match op with
  | .vcvt _ _ _ _ src _ a => [(a, src.fmt.code)]
  | .vsegmax ty _ _ a => [(a, ty.fmt.code)]
  | .vldx _ _ _ _ b _ _ => [(b, indexTag v)]
  | .vstx ty _ _ d _ b _ _ => [(d, ty.fmt.code), (b, indexTag v)]
  | .vgath _ _ _ _ b _ _ => [(b, indexTag v)]
  | .vscat ty _ d _ b _ _ => [(d, ty.fmt.code), (b, indexTag v)]
  | .vscadd ty _ d _ b _ _ => [(d, ty.fmt.code), (b, indexTag v)]
  | .vperm _ _ _ b => if v.wid = 0 then [] else [(b, indexTag v)]
  | .vmvx _ _ _ _ => []
  | op =>
    match op.widthFmt with
    | some f => op.vreads.map (fun r => (r, f.code))
    | none => []

/-- Data sources of an untyped operation (06 R124). -/
def EOp.dataSources : EOp → List VReg
  | .vand _ _ a b | .vor _ _ a b | .vxor _ _ a b => a :: b.vregs
  | .vmv _ _ a => [a]
  | .vperm _ _ a _ => [a]
  | .vslideUp _ _ a _ | .vslideDn _ _ a _ => [a]
  | .vcompress _ _ a => [a]
  | _ => []

/-- The tag an operation gives its destination (06 R124, 08 R178, 09 R219 to R221): of a register group the tag of its first register, and of a
register that vrest left with a reserved code that code (log 36). -/
def EOp.resultTag (op : EOp) (tagOf : VReg → BitVec 4) : BitVec 4 :=
  match op with
  | .vand _ _ a b | .vor _ _ a b | .vxor _ _ a b =>
    if tagOf a != 0 then tagOf a else (match b with | .vec r => tagOf r | .scalar _ => 0)
  | .vmv _ _ a => tagOf a
  | .vperm _ _ a _ => tagOf a
  | .vslideUp _ _ a _ | .vslideDn _ _ a _ => tagOf a
  | .vcompress _ _ a => tagOf a
  | op =>
    match op.widthFmt with
    | some f => f.code
    | none => 0

/-- VTYPE-dependent operations (06 R120, 10 R229). -/
def EOp.usesVtype (op : EOp) : Bool := !op.isTile

/-- Register groups an operation names. -/
def EOp.named (op : EOp) : List VReg :=
  op.vreads ++ op.vwrites.toList ++ (match op with | .vgamRd _ a => [a] | _ => [])

end Sys2Proof

namespace Sys2Proof.Machine

/-- Tag of a vector register name: the port's while it is open. -/
def Thread.tagOf (t : Thread) (r : VReg) : BitVec 4 :=
  match t.port r with
  | some n => t.portTag n
  | none => (t.vreg r.toNat).tag

/-- The slots an entry stands for. -/
def Entry.ops (e : Entry) : List EOp := e.op :: e.op2.toList

/-- The tags that an entry gives its destinations (06 R124): those that stood at its issue decide them. A port and a register that gang
delivery will write take none here. -/
def Thread.tagsAfter (t : Thread) (e : Entry) : Thread :=
  let put (t' : Thread) (op : EOp) (tag : BitVec 4) : Thread :=
    match op.vwrites with
    | some d => if op.isGam || (t.port d).isSome then t' else t'.setTag d e.vtype.group tag
    | none => t'
  if e.idle then t
  else
    match e.op2 with
    | some o => put (put t e.op e.tag0) o e.tag1
    | none => put t e.op e.tag0

/-- Whether element i of an operation takes a position of a port (09 R207): by its mask as it stood when the instruction began; that of vcompress is
its selection mask (log 36). -/
def Thread.picks (t : Thread) (op : EOp) (sel : Option (BitVec 16384)) (i : Nat) : Bool :=
  match sel with
  | some m => m.getLsbD i
  | none => t.kget op.mask.1 i

/-- Positions of a port that an operation on VL elements consumes (09 R207, R208, R221). -/
def Thread.consumed (t : Thread) (op : EOp) (sel : Option (BitVec 16384)) (vl n : Nat) : Nat :=
  let packed := match op with
    | .vcompress _ d a => t.port d == some n && t.port a != some n
    | _ => false
  if packed || t.portCmp n then countBelow (t.picks op sel) vl else vl

/-- The open ports an operation names. -/
def Thread.portsOf (t : Thread) (op : EOp) : List Nat :=
  distinct ((op.vreads ++ (if op.isGam then [] else op.vwrites.toList)).filterMap t.port)

/-- The open ports an operation reads. -/
def Thread.popsOf (t : Thread) (op : EOp) : List Nat := distinct (op.vreads.filterMap t.port)

/-- Move the ports an entry names (09 R207: a port named more than once is popped once); one that performs nothing moves those it reads (log 36). -/
def Thread.movePorts (t : Thread) (e : Entry) : Thread :=
  e.ops.foldl (fun t' op =>
    (if e.idle then t.popsOf op else t.portsOf op).foldl (fun t' n => t'.advancePort n (t.consumed op e.sel e.vl n)) t') t

/-- Position of element i of a port operand, where it has one (09 R207, R208). Slot 1 of a pair follows slot 0. -/
def Thread.elemPos (t : Thread) (w : Work) (n i : Nat) : Option Nat :=
  let base := t.portPos n + (match w.prev with
    | some op => if (t.portsOf op).contains n then t.consumed op w.sel w.vl n else 0
    | none => 0)
  if t.portCmp n then (if t.picks w.op w.sel i then some (base + countBelow (t.picks w.op w.sel) i) else none) else some (base + i)

/-- Streams and tags as they stand for the next instruction to issue: what each entry of the window opens, moves, closes and tags. A
position that depends on a mask takes the mask as it stands (09 R207, log 4). -/
def Thread.atIssue (t : Thread) : Thread := t.win.foldl (fun t e => ((t.tagsAfter e).movePorts e).formNow e) t

/-- A trap of the lanes at issue (06 R120): nothing has entered cmd. -/
def laneFail (code : BitVec 8) (detail : Nat) : Fail := ⟨code, srcLanes, BitVec.ofNat 12 detail, 0, 0⟩

/-- A format mismatch (04 R98): expected and found tags. -/
def tagFail (want got : BitVec 4) : Fail := laneFail cFormat (want.toNat + 16 * got.toNat)

/-- Registers of a group. -/
def groupRegs (r : VReg) (grouping : Nat) : List VReg := (List.range grouping).map (fun k => r + BitVec.ofNat 5 k)

/-- Tag checks of 06 R124 at issue. `vmvx` checks its source only where it returns an element (08 R180). Of a register group a typed check looks
at every register, the check of an untyped instruction at the first (log 36). -/
def Thread.tagCheck (t : Thread) (op : EOp) (v : VType) (vl : Nat) (sc : Word) : Option Fail :=
  let needs := match op with
    | .vmvx ty _ a _ => if vl = 0 ∨ vl ≤ sc.toNat then [] else [(a, ty.fmt.code)]
    | op => op.tagNeeds v
  let bad := needs.findSome? (fun p =>
    (if (t.port p.1).isSome then [p.1] else groupRegs p.1 v.group).findSome? (fun r =>
      if (r == p.1 || (t.port r).isNone) && t.tagOf r != p.2 then some (tagFail p.2 (t.tagOf r)) else none))
  match bad with
  | some f => some f
  | none =>
    match op.dataSources with
    | [a, b] => if t.tagOf a != 0 && t.tagOf b != 0 && t.tagOf a != t.tagOf b then some (tagFail (t.tagOf a) (t.tagOf b)) else none
    | _ => none

/-- Port rules at issue (09 R206 to R208, R210, R213, R223): on each named register group, an open port that is not its first register before all
else. -/
def Thread.portCheck (t : Thread) (op : EOp) (v : VType) : Option Fail :=
  op.named.findSome? (fun r =>
    let open_ := (groupRegs r (if op.isGam then 1 else v.group)).filter (fun q => (t.port q).isSome)
    let hit := (open_.find? (fun q => q != r)).or open_.head?
    match hit with
    | none => none
    | some q =>
      let n := q.toNat - 28
      let fib := (t.stream n).fib
      let err (reason : Nat) : Option Fail := some (t.errorAt reason n false)
      if q != r then err 3
      else if op.isGam then err 7
      else if op.vwrites = some r ∧ (fib ∨ !sdDir (t.stream n).desc) then err 4
      else if op.vreads.contains r ∧ !fib ∧ sdDir (t.stream n).desc then err 4
      else if op.vwrites = some r ∧ op.resultTag t.tagOf != t.portTag n then some (tagFail (t.portTag n) (op.resultTag t.tagOf))
      else if tagWidth (t.portTag n) != v.width then some (laneFail cVtype 0)
      else none)

/-- Slab lines of a matrix operand lie in the core scratchpad window, aligned (10 R227, R232). -/
def slabOk (base : Word) (blocks planes : Nat) : Bool :=
  decide (base.toNat % 128 = 0 ∧ winCore ≤ base.toNat ∧ base.toNat + blocks * 128 * (planes + 1) ≤ winCore + 2 ^ 20)

/-- Rows and columns of SHAPE (06 R125). -/
def shapeRows (shape : Word) : Nat := (shape.extractLsb' 0 6).toNat
def shapeCols (shape : Word) : Nat := (shape.extractLsb' 8 6).toNat
def Thread.shape (t : Thread) : Word := t.cols.setWidth 64 <<< 8 ||| t.rows.setWidth 64

/-- Operand checks of the matrix engine at issue (10 R232): the lowest reason that applies to an instruction that performs something (06
R122). Where KLEN is 0 or no multiple of 32, reason 1 looks at the lines of ceil(KLEN / 32) K-blocks, of one at least (log 36). -/
def matrixReason (op : EOp) (sc : List Word) (vl vstart : Nat) (shape : Word) : Option Nat :=
  match op with
  | .plpack _ _ _ p _ _ _ _ | .plunpk _ p _ _ _ =>
    if vl = 0 ∨ vl ≤ vstart then none
    else
      let r0 := (sc.getD 1 0).toNat
      if !slabOk (sc.getD 0 0) 1 (p.toNat + 1) then some 1
      else if 31 < r0 ∨ 32 < r0 + (vl + 31) / 32 then some 4
      else none
  | .mma pa pb _ _ _ _ _ =>
    let rows := shapeRows shape
    let cols := shapeCols shape
    if rows = 0 ∨ cols = 0 ∨ rows ≤ vstart then none
    else
      let c := sc.getD 2 0
      let k := (c.extractLsb' 0 16).toNat
      let blocks := max 1 ((k + 31) / 32)
      if !slabOk (sc.getD 0 0) blocks (pa.toNat + 1) || !slabOk (sc.getD 1 0) blocks (pb.toNat + 1) then some 1
      else if k = 0 ∨ k % 32 ≠ 0 ∨ c.extractLsb' 26 38 ≠ 0 then some 2
      else if 32 < (c.extractLsb' 16 5).toNat + rows ∨ 32 < (c.extractLsb' 21 5).toNat + cols then some 3
      else none
  | _ => none

/-- Every check that the access processor makes when it issues an execute-class operation, in order (08 R171, 09 R194, R204, 10
R232), on the thread as it stands at the issue point. A stream error has SRC 11, the one 04 R98 gives it; any other trap of a matrix
instruction has SRC 10 (10 R231; log 36). Tag checks, the checks of ports and scale range come before the stop of 06 R122, also those of plpack, which
R171 does not govern (07 R159; log 36). -/
def Thread.issueFail (t : Thread) (op : EOp) (sc : List Word) : Option Fail :=
  let v := t.vtype
  let src := if op.isMatrix then srcMatrix else srcLanes
  let withSrc (f : Fail) : Fail := if f.code = cStream then f else { f with src := src }
  if op.usesVtype && v.vill then some (withSrc (laneFail cVtype 0))
  else if op.isForm then t.formCheck op
  else
    let width := match op.widthFmt with
      | some f => f.width != v.width
      | none => false
    let misaligned := op.usesVtype && op.named.any (fun r => r.toNat % v.group != 0)
    if width || misaligned then some (withSrc (laneFail cVtype 0))
    else if op.isGam then t.portCheck op v
    else
      match t.tagCheck op v t.vl (sc.getD 0 0) with
      | some f => some (withSrc f)
      | none =>
        match t.portCheck op v with
        | some f => some (withSrc f)
        | none =>
          match op with
          | .vsegmax _ _ _ _ => if 8192 < t.vl then some (laneFail cScaleRange 0) else none
          | op =>
            match matrixReason op sc t.vl t.vstart.toNat t.shape with
            | some r => some ⟨cMatrix, srcMatrix, BitVec.ofNat 12 r, 0, 0⟩
            | none => none

end Sys2Proof.Machine
end

