-- ==== Sys2Proof/Machine/VecCompute.lean ====
section
/-!
DEFINITION. Element results of the vector compute instructions (08): floating point, integers, bit operations, masks, conversions,
block scales, saliency, generated values.
-/
namespace Sys2Proof.Machine

/-- What one element of an operation gives: its bits and the flags it raises, or why it cannot be performed. -/
abbrev Elem := Except Stop (Nat × Flags)

/-- Element i of a vector operand at width wd: of the register, or popped from its port (09 R206, R207). -/
def State.operand (s : State) (w : Work) (r : VReg) (wd i : Nat) : Except Stop Nat :=
  match s.me.port r with
  | none => s.me.vread r wd i
  | some n =>
    if w.vl ≤ i then .ok 0
    else
      match s.me.elemPos w n i with
      | none => .ok 0
      | some p => s.popAt w.place (i / (256 / wd) % s.me.lanes) w.since n p

/-- Element i of a second source: a vector operand or the captured scalar (08 R169). -/
def State.second (s : State) (w : Work) (f : Fmt) (b : VSrc) (i : Nat) : Except Stop Nat :=
  match b with
  | .vec r => s.operand w r f.width i
  | .scalar _ => .ok (scalarFor f (w.scal 0))

/-- A floating operand as an operation reads it (07 R145, R157). -/
def Thread.fval (t : Thread) (f : Fmt) (bits : Nat) : FVal := (decodeFmt t.codebook f bits).flush (layoutOf f) t.fz

/-- A two-source floating operation (08 R174, R175). -/
def State.floatTwo (s : State) (w : Work) (f : Fmt) (rms : Rms) (a : VReg) (b : VSrc) (i : Nat)
    (act : Mode → FVal → FVal → Exact) : Elem := do
  let x ← s.operand w a f.width i
  let y ← s.second w f b i
  let r := rounded f (s.me.mode rms) s.me.fz (act (s.me.mode rms) (s.me.fval f x) (s.me.fval f y))
  .ok (r.bits, r.flags)

/-- vfma and vfnma (08 R174): 0 x infinity is invalid also with a quiet NaN addend. -/
def vecFma (mode : Mode) (a b c : FVal) : Exact :=
  if a.isNan || b.isNan then quietNan [a, b, c]
  else
    match fMul a b with
    | (.nan _, fl) => (.nan false, fl)
    | (p, _) => fAdd mode p c

def State.floatFma (s : State) (w : Work) (f : Fmt) (rms : Rms) (neg : Bool) (d a : VReg) (b : VSrc) (i : Nat) : Elem := do
  let x ← s.operand w a f.width i
  let y ← s.second w f b i
  let z ← s.operand w d f.width i
  let fx := s.me.fval f x
  let r := rounded f (s.me.mode rms) s.me.fz
    (vecFma (s.me.mode rms) (if neg then fx.negate else fx) (s.me.fval f y) (s.me.fval f z))
  .ok (r.bits, r.flags)

/-- The relation of a predicate on an order (08 R175, R177). -/
def predHolds (p : Pred) (lt eq : Bool) : Bool :=
  match p with
  | .eq => eq
  | .ne => !eq
  | .lt => lt
  | .le => lt || eq
  | .gt => !lt && !eq
  | .ge => !lt

/-- A floating compare (08 R175). -/
def floatPred (p : Pred) (a b : FVal) : Nat × Flags :=
  if a.isNan || b.isNan then
    (if p = .ne then 1 else 0,
      { Flags.none with nv := a.isSnan || b.isSnan || !(p = .eq ∨ p = .ne) })
  else (if predHolds p (fLess a b) (fEqual a b) then 1 else 0, Flags.none)

/-- Sign injection (08 R176): the sign bit of a becomes `f (sign a) (sign b)`. -/
def State.signInject (s : State) (w : Work) (fmt : Fmt) (a : VReg) (b : VSrc) (i : Nat) (f : Bool → Bool → Bool) : Elem := do
  let x ← s.operand w a fmt.width i
  let y ← s.second w fmt b i
  let top := fmt.width - 1
  let low := x % 2 ^ top
  .ok (if f (x.testBit top) (y.testBit top) then low + 2 ^ top else low, Flags.none)

/-- A two-source integer operation on bits, at the width of its format (08 R177). -/
def State.intTwo (s : State) (w : Work) (f : Fmt) (a : VReg) (b : VSrc) (i : Nat) (act : Nat → Nat → Nat) : Elem := do
  let x ← s.operand w a f.width i
  let y ← s.second w f b i
  .ok (act x y % 2 ^ f.width, Flags.none)

/-- The bits of an integer modulo 2^w. -/
def putInt (w : Nat) (i : Int) : Nat := (i % ((2 ^ w : Nat) : Int)).toNat

/-- Clamp to the range of w bits (08 R177, R184). -/
def saturate (w : Nat) (nat : Bool) (i : Int) : Nat :=
  let lo : Int := if nat then 0 else -((2 ^ (w - 1) : Nat) : Int)
  let hi : Int := if nat then (2 ^ w : Nat) - 1 else (2 ^ (w - 1) : Nat) - 1
  putInt w (max lo (min hi i))

/-- A two-source integer operation on the values read under N, with an exact result put through `out`. -/
def State.intExact (s : State) (w : Work) (ty : Ty) (a : VReg) (b : VSrc) (i : Nat) (act : Int → Int → Int) (out : Int → Nat) : Elem := do
  let x ← s.operand w a ty.fmt.width i
  let y ← s.second w ty.fmt b i
  .ok (out (act (integerOf ty.fmt.width ty.nat x) (integerOf ty.fmt.width ty.nat y)), Flags.none)

/-- Bitwise operation at the width WID (08 R178). -/
def State.bitTwo (s : State) (w : Work) (a : VReg) (b : VSrc) (i : Nat) (act : Nat → Nat → Nat) : Elem := do
  let wd := w.vt.width
  let x ← s.operand w a wd i
  let y ← match b with
    | .vec r => s.operand w r wd i
    | .scalar _ => .ok ((w.scal 0).toNat % 2 ^ wd)
  .ok (act x y, Flags.none)

/-- A mask operation on one bit (08 R181). -/
def State.maskTwo (s : State) (a b : KReg) (i : Nat) (act : Bool → Bool → Bool) : Elem := do
  let x ← s.me.kread a i
  let y ← s.me.kread b i
  .ok (if act x y then 1 else 0, Flags.none)

/-- a x 2^s, flushed after scaling (08 R187). -/
def scaleVal (s : Int) : FVal → FVal
  | .fin n m e => .fin n m (e + s)
  | v => v

def State.scaleElem (s : State) (w : Work) (f : Fmt) (inv : Bool) (a : VReg) (b : EReg) (i : Nat) : Elem := do
  let sc ← s.me.eread b (i / 32)
  let x ← s.operand w a f.width i
  if sc = 255 then .ok ((layoutOf f).nanBits, flagNv)
  else
    let sh : Int := if inv then 127 - (sc : Int) else (sc : Int) - 127
    let v := (scaleVal sh (decodeFmt s.me.codebook f x)).flush (layoutOf f) s.me.fz
    let r := roundFmt f (Mode.ofRm s.me.rm) s.me.fz v
    .ok (r.bits, r.flags)

/-- The conversion of one element (07 R156, 08 R184): to an integer, between integers, or to a floating format. -/
def convertElem (t : Thread) (mode : Mode) (dst src : Ty) (x : Nat) : Nat × Flags :=
  if src.fmt.isInt then
    let i := integerOf src.fmt.width src.nat x
    if dst.fmt.isInt then (saturate dst.fmt.width dst.nat i, Flags.none)
    else
      let r := roundFmt dst.fmt mode t.fz (FVal.ofInt i)
      (r.bits, r.flags)
  else
    let v := t.fval src.fmt x
    let r := if dst.fmt.isInt then toInteger dst.fmt.width dst.nat mode v else roundFmt dst.fmt mode t.fz v
    (r.bits, r.flags)

/-- The source element of destination element i under a part (08 R183); none where i lies outside the part. -/
def cvtSource (part : Nat) (dst src : Fmt) (i : Nat) : Option Nat :=
  let et := 256 / dst.width
  let ef := 256 / src.width
  let g := i / et
  let j := i % et
  if dst.width = src.width then some i
  else if src.width < dst.width then some (g * ef + part * et + j)
  else if j / ef = part then some (g * ef + (j - part * ef))
  else none

/-- Saliency product (07 R165): none stands for a NaN, else the magnitude. -/
def salProduct (t : Thread) (f : Fmt) (a b : Nat) : Option FVal :=
  let r := rounded .fp32 .rne false (fMul (decodeFmt t.codebook f a) (decodeFmt t.codebook f b))
  match fp32.decode r.bits with
  | .nan _ => none
  | .inf _ => some (.inf false)
  | .fin _ m e => some (.fin false m e)

/-- Whether candidate p (index, product) ranks before q (07 R165). -/
def salBefore (p q : Nat × Option FVal) : Bool :=
  match p.2, q.2 with
  | none, none => decide (p.1 < q.1)
  | none, some _ => true
  | some _, none => false
  | some x, some y => fLess y x || (!fLess x y && decide (p.1 < q.1))

def salKeep : SalPat → Nat
  | .n2m4 => 2 | .n4m8 => 4 | .n1m4 => 1
def salSize : SalPat → Nat
  | .n2m4 => 4 | .n4m8 => 8 | .n1m4 => 4

/-- Candidates of the set that holds element i with their products (08 R188). -/
def State.salCandidates (s : State) (w : Work) (m : Nat) (f : Fmt) (k : KReg) (a b : VReg) (i : Nat) :
    Except Stop (List (Nat × Option FVal)) :=
  let first := m * (i / m)
  let js := (List.range m).map (fun j => first + j)
  (js.filter (fun j => decide (j < w.vl))).foldlM (fun acc j => do
    if ← s.me.kread k j then
      let x ← s.operand w a f.width j
      let y ← s.operand w b f.width j
      .ok (acc ++ [(j, salProduct s.me f x y)])
    else .ok acc) []

def State.salElem (s : State) (w : Work) (pat : SalPat) (f : Fmt) (k : KReg) (a b : VReg) (i : Nat) : Elem := do
  let cs ← s.salCandidates w (salSize pat) f k a b i
  match cs.find? (fun c => c.1 == i) with
  | none => .ok (0, Flags.none)
  | some c => .ok (if (cs.filter (fun q => salBefore q c)).length < salKeep pat then 1 else 0, Flags.none)

/-- rng32 (07 R166). -/
def rngKw : Word := 0x7A3D95C10E6BF249
def rngMul : List Word := [0xB5E31F7AC94D2E6B, 0x8F1D6C39E2A754B3, 0xD16B4A823F9EC5A7]
def rngRot : List Nat := [17, 41, 23]
def rngRound (key x : Word) (j : Nat) : Word :=
  let a := (x ^^^ (key + BitVec.ofNat 64 j * rngKw)) * rngMul.getD j 0
  (a ^^^ (a >>> 29)).rotateLeft (rngRot.getD j 0)
def rng32 (key ctr : Word) : Nat :=
  let x := [0, 1, 2].foldl (rngRound key) ctr
  (x.extractLsb' 32 32 ^^^ x.extractLsb' 0 32).toNat

/-- The result of element i of a compute operation (08 R173). Loads, stores and operations that are not element by element answer
zero here: they are performed elsewhere. -/
def State.compute (s : State) (w : Work) (i : Nat) : Elem :=
  match w.op with
  | .vaddFp ty _ rms _ a b => s.floatTwo w ty.fmt rms a b i fAdd
  | .vsubFp ty _ rms _ a b => s.floatTwo w ty.fmt rms a b i fSub
  | .vmulFp ty _ rms _ a b => s.floatTwo w ty.fmt rms a b i (fun _ => fMul)
  | .vdiv ty _ rms _ a b => s.floatTwo w ty.fmt rms a b i (fun _ => fDiv)
  | .vsqrt ty _ rms _ a => do
    let x ← s.operand w a ty.fmt.width i
    let r := rounded ty.fmt (s.me.mode rms) s.me.fz (fSqrt (s.me.fval ty.fmt x))
    .ok (r.bits, r.flags)
  | .vfma ty _ rms d a b => s.floatFma w ty.fmt rms false d a b i
  | .vfnma ty _ rms d a b => s.floatFma w ty.fmt rms true d a b i
  | .vminFp ty _ rms _ a b => s.floatTwo w ty.fmt rms a b i (fun _ => fMinMax false)
  | .vmaxFp ty _ rms _ a b => s.floatTwo w ty.fmt rms a b i (fun _ => fMinMax true)
  | .vcmpFp p ty _ _ a b => do
    let x ← s.operand w a ty.fmt.width i
    let y ← s.second w ty.fmt b i
    .ok (floatPred p (s.me.fval ty.fmt x) (s.me.fval ty.fmt y))
  | .vsgn ty _ _ a b => s.signInject w ty.fmt a b i (fun _ y => y)
  | .vsgnn ty _ _ a b => s.signInject w ty.fmt a b i (fun _ y => !y)
  | .vsgnx ty _ _ a b => s.signInject w ty.fmt a b i (fun x y => x != y)
  | .vscl inv ty _ _ a b => s.scaleElem w ty.fmt inv a b i
  | .vaddInt ty _ _ a b => s.intTwo w ty.fmt a b i (fun x y => x + y)
  | .vsubInt ty _ _ a b => s.intTwo w ty.fmt a b i (fun x y => x + (2 ^ ty.fmt.width - y))
  | .vaddSat ty _ _ a b => s.intExact w ty a b i (fun x y => x + y) (saturate ty.fmt.width ty.nat)
  | .vsubSat ty _ _ a b => s.intExact w ty a b i (fun x y => x - y) (saturate ty.fmt.width ty.nat)
  | .vmulInt ty _ _ a b => s.intTwo w ty.fmt a b i (fun x y => x * y)
  | .vmulh ty _ _ a b => s.intExact w ty a b i (fun x y => x * y) (fun p => putInt (2 * ty.fmt.width) p / 2 ^ ty.fmt.width)
  | .vmadd ty _ d a b => do
    let x ← s.operand w a ty.fmt.width i
    let y ← s.second w ty.fmt b i
    let z ← s.operand w d ty.fmt.width i
    .ok ((x * y + z) % 2 ^ ty.fmt.width, Flags.none)
  | .vminInt ty _ _ a b => s.intExact w ty a b i (fun x y => min x y) (putInt ty.fmt.width)
  | .vmaxInt ty _ _ a b => s.intExact w ty a b i (fun x y => max x y) (putInt ty.fmt.width)
  | .vcmpInt p ty _ _ a b =>
    s.intExact w ty a b i (fun x y => if predHolds p (decide (x < y)) (decide (x = y)) then 1 else 0) Int.toNat
  | .vsll ty _ _ a b => s.intTwo w ty.fmt a b i (fun x y => x * 2 ^ (y % ty.fmt.width))
  | .vsrl ty _ _ a b => s.intTwo w ty.fmt a b i (fun x y => x / 2 ^ (y % ty.fmt.width))
  | .vsra ty _ _ a b => s.intTwo w ty.fmt a b i (fun x y =>
      putInt ty.fmt.width (integerOf ty.fmt.width false x / ((2 ^ (y % ty.fmt.width) : Nat) : Int)))
  | .vid ty _ _ => .ok (i % 2 ^ ty.fmt.width, Flags.none)
  | .vand _ _ a b => s.bitTwo w a b i (fun x y => x &&& y)
  | .vor _ _ a b => s.bitTwo w a b i (fun x y => x ||| y)
  | .vxor _ _ a b => s.bitTwo w a b i (fun x y => x ^^^ y)
  | .vmv _ _ a => do
    let x ← s.operand w a w.vt.width i
    .ok (x, Flags.none)
  | .kand _ a b => s.maskTwo a b i (fun x y => x && y)
  | .kor _ a b => s.maskTwo a b i (fun x y => x || y)
  | .kxor _ a b => s.maskTwo a b i (fun x y => x != y)
  | .kandn _ a b => s.maskTwo a b i (fun x y => x && !y)
  | .knot _ a => s.maskTwo a a i (fun x _ => !x)
  | .kset _ => .ok (1, Flags.none)
  | .vbcast ty _ _ _ => .ok ((w.scal 0).toNat % 2 ^ (if ty.fmt = .t6 then 6 else ty.fmt.width), Flags.none)
  | .vcvt _ rms part dst src _ a =>
    match cvtSource part.toNat dst.fmt src.fmt i with
    | none => .ok (0, Flags.none)
    | some j => do
      let x ← s.operand w a src.fmt.width j
      .ok (convertElem s.me (s.me.mode rms) dst src x)
  | .vsalsel pat ty m _ a b => s.salElem w pat ty.fmt m.k a b i
  | .vrngN32 _ _ _ _ => .ok (rng32 (w.scal 0) (w.scal 1 + BitVec.ofNat 64 i), Flags.none)
  | _ => .ok (0, Flags.none)

/-- The value a form returns for an element (08 R180, 09 R217). -/
def Thread.returned (t : Thread) (ty : Ty) (bits : Nat) : Word × Flags :=
  match ty.fmt with
  | .fp64 | .fp32 => (BitVec.ofNat 64 bits, Flags.none)
  | .int8 | .int16 | .int32 | .int64 =>
    (BitVec.ofInt 64 (integerOf ty.fmt.width ty.nat bits), Flags.none)
  | f =>
    let r := roundFmt .fp32 .rne false (decodeFmt t.codebook f bits)
    (BitVec.ofNat 64 r.bits, r.flags)

/-- block_exponent (07 R160) of decoded active elements. -/
def blockExponent (vs : List FVal) : Nat :=
  if vs.any (fun v => match v with | .fin _ _ _ => false | _ => true) then 255
  else
    let es := vs.filterMap (fun v => match v with
      | .fin _ m e => if m = 0 then none else some ((Nat.log2 m : Int) + e)
      | _ => none)
    match es with
    | [] => 0
    | e :: r => (min (max (r.foldl max e + 127) 0) 254).toNat

end Sys2Proof.Machine
end

