-- ==== Sys2Proof/Machine/VecMem.lean ====
section
/-!
DEFINITION. Elements of vector loads, stores, gathers, scatters, scatter-adds and pushes (09 R195 to R201, R208, 18 R321 to R327),
and what one element of any lane operation does under its class (06 R121).
-/
namespace Sys2Proof.Machine

/-- A 15-bit offset of an indexed form (09 R195). -/
def off15 (b : BitVec 15) : Word := b.signExtend 64

/-- Address of element i of a memory form (09 R196, 18 R323). -/
def State.elemAddress (s : State) (w : Work) (i : Nat) : Except Stop Word :=
  let unit (f : Fmt) (off : Imm19) : Word :=
    let b := w.scal 0 + off.signExtend 64
    if f.width = 4 then b + BitVec.ofNat 64 (i / 2) else b + BitVec.ofNat 64 (i * (f.width / 8))
  let strided (off : Imm19) : Word := w.scal 0 + off.signExtend 64 + BitVec.ofNat 64 i * w.scal 1
  let indexed (b : VReg) (sh : BitVec 4) (off : BitVec 15) : Except Stop Word := do
    let x ← s.operand w b w.vt.width i
    .ok (w.scal 0 + off15 off + BitVec.ofNat 64 (x * 2 ^ sh.toNat))
  let row (f : Fmt) (b : VReg) (sh : BitVec 5) (re : BitVec 12) : Except Stop Word := do
    let x ← s.operand w b w.vt.width (i / (re.toNat + 1))
    .ok (w.scal 0 + BitVec.ofNat 64 (x * 2 ^ sh.toNat) + BitVec.ofNat 64 (i % (re.toNat + 1) * (f.width / 8)))
  match w.op with
  | .vld ty _ _ _ off => .ok (unit ty.fmt off)
  | .vst ty _ _ _ _ off => .ok (unit ty.fmt off)
  | .vlds _ _ _ _ _ off => .ok (strided off)
  | .vsts _ _ _ _ _ _ off => .ok (strided off)
  | .vldx _ _ _ _ b sh off => indexed b sh off
  | .vstx _ _ _ _ _ b sh off => indexed b sh off
  | .vgath ty _ _ _ b sh re => row ty.fmt b sh re
  | .vscat ty _ _ _ b sh re => row ty.fmt b sh re
  | .vscadd ty _ _ _ b sh re => row ty.fmt b sh re
  | _ => .ok 0

/-- The format a memory form moves. -/
def memFmt (op : EOp) : Fmt :=
  match op.widthFmt with
  | some f => f
  | none => .int8

/-- Where the elements of a form may lie. -/
def reachOf (op : EOp) : Reach :=
  match op with
  | .vldx _ _ _ _ _ _ _ | .vstx _ _ _ _ _ _ _ _ => .scratch
  | op => if op.isAwl then .awl else .plain

/-- Bytes of an element in memory; a 4-bit element lies in one byte (07 R143). -/
def memSize (f : Fmt) : Nat := max 1 (f.width / 8)

/-- Logical lane of element i. -/
def Work.lane (w : Work) (lanes i : Nat) : Nat := i / w.vt.perGroup % lanes

/-- TIME of the youngest load that the addresses of a form depend on: elements of an index vector may come from one (11 R249). -/
def State.memSince (s : State) (w : Work) : Nat :=
  match w.op with
  | .vldx _ _ _ _ _ _ _ => s.time + 1
  | .vgath _ _ _ _ _ _ _ => s.time + 1
  | _ => w.since

/-- Load element i (09 R197, R198). -/
def State.loadValue (s : State) (w : Work) (i : Nat) : Except Stop Nat := do
  let va ← s.elemAddress w i
  let f := memFmt w.op
  match s.getElem w.place (w.lane s.me.lanes i) (s.memSince w) (reachOf w.op) va (memSize f) with
  | .error m => .error (m.stop srcLanes 0)
  | .ok l =>
    let v := leNat l
    .ok (if f.width = 4 then v / 16 ^ (i % 2) % 16 else if f = .t6 then v % 64 else v)

/-- What an active or masked-off element does: bytes for memory come with the ordering kind of their page (11 R245). -/
inductive Act where
  | nothing
  | reg (bits : Nat)
  | bytes (kind : BitVec 2) (o : Out1)
  | add (a : AddItem)
  | value (x : Word)
  deriving DecidableEq, Repr

/-- Bytes of element i stored at an address (09 R198). -/
def State.storeBytes (s : State) (w : Work) (f : Fmt) (reach : Reach) (va : Word) (i v : Nat) : Except Stop Act :=
  let data := if f.width = 4 then [BitVec.ofNat 8 (v % 16 * 16 ^ (i % 2))] else leBytes (f.width / 8) (if f = .t6 then v % 64 else v)
  let mask : Byte := if f.width = 4 then (if i % 2 = 0 then 0x0F else 0xF0) else 0xFF
  match s.putElem (w.lane s.me.lanes i) reach va data mask with
  | .error m => .error (m.stop srcLanes 0)
  | .ok o => .ok (.bytes o.1 o.2)

/-- Store element i: the data register first, then the address and its checks. -/
def State.storeElem (s : State) (w : Work) (d : VReg) (i : Nat) : Except Stop Act := do
  let f := memFmt w.op
  let v ← s.operand w d f.width i
  let va ← s.elemAddress w i
  s.storeBytes w f (reachOf w.op) va i v

/-- One addition of a scatter-add (18 R323, R326): checked now, performed after release. -/
def State.addElem (s : State) (w : Work) (f : Fmt) (d : VReg) (i : Nat) : Except Stop Act := do
  let v ← s.operand w d f.width i
  let va ← s.elemAddress w i
  match s.checkElem .store (w.lane s.me.lanes i) .awl va (f.width / 8) with
  | .error b => .error (.fail ⟨b.code, srcLanes, b.detail, va, 0⟩)
  | .ok x =>
    match x.place with
    | .near h => .ok (.add ⟨h, f, v, s.me.rm, s.me.fz⟩)
    | .cap _ => .error (.fail ⟨cAccess, srcLanes, detailOf .store false, va, 0⟩)
    | .far _ _ => .error (.fail ⟨cAccess, srcLanes, detailOf .store true, va, 0⟩)

/-- Push a value at a position of a write port (09 R208): beyond the end it is discarded. -/
def State.pushAt (s : State) (w : Work) (n p i v : Nat) : Except Stop Act :=
  if s.me.portEnd n ≤ p then .ok .nothing
  else
    let lane := w.lane s.me.lanes i
    match s.portAddress w.place lane w.since .plain n p with
    | .error e => .error e
    | .ok va =>
      let size := s.me.portSize n
      match s.putElem lane .plain va (leBytes size (s.me.portBits n v)) 0xFF with
      | .error m => .error (m.stop srcStream (s.me.portFault n p))
      | .ok o => .ok (.bytes o.1 o.2)

/-- Where the value of element i of the destination goes: its register, or the position it takes in a write port (09 R208). -/
def State.placeAct (s : State) (w : Work) (i v : Nat) : Except Stop Act :=
  match w.op.vwrites.bind s.me.port with
  | none => .ok (.reg v)
  | some n =>
    match s.me.elemPos w n i with
    | none => .ok .nothing
    | some p => s.pushAt w n p i v

/-- Whether an element of a destination lies outside the part a narrowing conversion writes (08 R183). -/
def outsidePart (op : EOp) (i : Nat) : Bool :=
  match op with
  | .vcvt _ _ part dst src _ _ => (cvtSource part.toNat dst.fmt src.fmt i).isNone
  | _ => false

/-- Masked-off and tail elements are zeroed (06 R121); a mask operation has no masked-off bit (08 R181). -/
def Work.zeroMasked (w : Work) : Bool := w.op.mask.2 || w.vt.mp

/-- The value returned by vmvx for element i (08 R180): 0 where there is no such element. -/
def State.moveOut (s : State) (w : Work) (ty : Ty) (a : VReg) (i : Nat) : Except Stop (Act × Flags) := do
  if w.vl ≤ i then .ok (.value 0, Flags.none) else
  let x ← s.operand w a ty.fmt.width i
  let r := s.me.returned ty x
  .ok (.value r.1, r.2)

/-- Whether a masked-off element is written by its class: it is no prestart element of the instruction itself (06 R121, 08 R188). -/
def Work.takesMasked (w : Work) (i : Nat) : Bool :=
  w.takes i && (i / w.vt.perGroup != w.first / w.vt.perGroup || decide (w.first ≤ i))

/-- What element i of a lane operation does, with its flags (06 R121, 08 R171). Of several poisoned register words that one element reads,
the mask's is reported, then those of the sources in the order the operation names them (log 36). -/
def State.element (s : State) (w : Work) (i : Nat) : Except Stop (Act × Flags) :=
  match w.op with
  | .vmvx ty _ a _ => s.moveOut w ty a i
  | op =>
    if outsidePart op i then .ok (.nothing, Flags.none)
    else if w.vl ≤ i then
      .ok (if w.vt.tp && (op.vwrites.bind s.me.port).isNone && (op.vwrites.isSome || op.kwrites.isSome) then .reg 0 else .nothing, Flags.none)
    else if !w.takes i then .ok (.nothing, Flags.none)
    else
      match s.me.kread op.mask.1 i with
      | .error e => .error e
      | .ok false =>
        if w.zeroMasked && w.takesMasked i && (op.vwrites.isSome || op.kwrites.isSome) then (s.placeAct w i 0).map (fun a => (a, Flags.none))
        else .ok (.nothing, Flags.none)
      | .ok true =>
        match op with
        | .vst _ _ _ d _ _ => (s.storeElem w d i).map (fun a => (a, Flags.none))
        | .vsts _ _ _ d _ _ _ => (s.storeElem w d i).map (fun a => (a, Flags.none))
        | .vstx _ _ _ d _ _ _ _ => (s.storeElem w d i).map (fun a => (a, Flags.none))
        | .vscat _ _ d _ _ _ _ => (s.storeElem w d i).map (fun a => (a, Flags.none))
        | .vscadd ty _ d _ _ _ _ => (s.addElem w ty.fmt d i).map (fun a => (a, Flags.none))
        | op =>
          match (if op.isLoad then (s.loadValue w i).map (fun v => (v, Flags.none)) else s.compute w i) with
          | .error e => .error e
          | .ok (v, fl) => (s.placeAct w i v).map (fun a => (a, fl))

/-- Reads of memory that element i makes through the ports it pops, and by itself (06 R140, 21 R383). -/
def State.elementPops (s : State) (w : Work) (i : Nat) : List (Word × Nat) :=
  (s.me.popsOf w.op).flatMap (fun n =>
    match s.me.elemPos w n i with
    | some p => s.popReads w.place (w.lane s.me.lanes i) n p
    | none => [])

def State.elementReads (s : State) (w : Work) (i : Nat) : List (Word × Nat) :=
  if w.op.isLoad then
    match s.elemAddress w i with
    | .ok va => [(va, memSize (memFmt w.op))]
    | .error _ => []
  else []

/-- Where the elements of a read of an operation may lie: a read of a load of its own, else one of a pop. -/
def readReach (own : Bool) (op : EOp) : Reach := if own then reachOf op else .plain

/-- Reads of element i in the V path, each with the reach it has: pops, and the read of a load that does not go by the Awl (11 R241, R250). -/
def State.laneReads (s : State) (w : Work) (i : Nat) : List (Bool × Word × Nat) :=
  (s.elementPops w i).map (fun r => (false, r)) ++ (if w.op.isAwl then [] else (s.elementReads w i).map (fun r => (true, r)))

/-- Addresses that element i stores to: of a store, or a position of a port it pushes. -/
def State.elementStores (s : State) (w : Work) (i : Nat) : List Word :=
  (if w.op.isStore then (match s.elemAddress w i with | .ok va => [va] | .error _ => []) else [])
  ++ (match w.op.vwrites.bind s.me.port with
    | some n =>
      (match s.me.elemPos w n i with
        | some p => (match s.portAddress w.place (w.lane s.me.lanes i) w.since .plain n p with | .ok va => [va] | .error _ => [])
        | none => [])
    | none => [])

/-- The kind of the page of element i of a memory form (11 R245): none for a scratchpad window, a lane slice or the host window, or where the
access fails. -/
def State.pageKind (s : State) (w : Work) (i : Nat) : Option (BitVec 2) :=
  match s.elemAddress w i with
  | .error _ => none
  | .ok va =>
    match s.checkElem (if w.op.isLoad then .load else .store) (w.lane s.me.lanes i) (reachOf w.op) va (memSize (memFmt w.op)) with
    | .ok x => x.kind
    | .error _ => none

/-- The ordering kinds of the reads of element i that its lane performs in its order: of SO pages and of its slice (09 R200, 11 R246, R248). -/
def State.elemOrder (s : State) (w : Work) (i : Nat) : List (BitVec 2) :=
  (s.laneReads w i).filterMap (fun r =>
    match s.checkElem .load (w.lane s.me.lanes i) (readReach r.1 w.op) r.2.1 r.2.2 with
    | .ok x => if x.order == 1 || x.order == 3 then some x.order else none
    | .error _ => none)

end Sys2Proof.Machine
end

