-- ==== Sys2Proof/Machine/Meet.lean ====
section
/-!
DEFINITION. What a unit of execute-side work leaves (Effects), and the rendezvous instructions of OP 0xC0 to 0xC5 (09 R216 to
R222), with the order of sums (07 R162), and vsegmax (08 R185, R186).
-/
namespace Sys2Proof.Machine

/-- Bytes and additions that one element leaves for memory, with the ordering kind of its page; bytes for another package with the package. -/
structure Piece where
  elem : Nat
  kind : BitVec 2
  near : List MaskedByte
  far : List (Nat × MaskedByte)
  adds : List AddItem
  deriving DecidableEq, Repr

/-- What performed elements leave: elements of the destination register (vector, mask or scale) by index, pieces for memory, a returned
value, and flags. -/
structure Effects where
  vals : List (Nat × Nat)
  out : List Piece
  value : Option Word
  flags : Flags
  deriving DecidableEq, Repr

def Effects.none : Effects := ⟨[], [], Option.none, Flags.none⟩

/-- Bytes of element i as a piece. -/
def pieceOf (i : Nat) (kind : BitVec 2) (o : Out1) : Piece :=
  ⟨i, kind, o.filterMap (fun p => if p.1.isNone then some p.2 else none), o.filterMap (fun p => p.1.map (fun pkg => (pkg, p.2))), []⟩

def Effects.add (e : Effects) (i : Nat) (a : Act) (fl : Flags) : Effects :=
  let e := { e with flags := e.flags.or fl }
  match a with
  | .nothing => e
  | .reg v => { e with vals := e.vals ++ [(i, v)] }
  | .bytes kind o => { e with out := e.out ++ [pieceOf i kind o] }
  | .add x => { e with out := e.out ++ [⟨i, 0, [], [], [x]⟩] }
  | .value x => { e with value := some x }

/-- Write elements of a register group, whatever groups they lie in; bits [7:6] of the 8-bit elements of a T6 register are zero (07 R143;
at another width a move keeps its bits, log 36). -/
def Thread.vwriteAll (t : Thread) (d : VReg) (wd : Nat) (tag : BitVec 4) (vals : List (Nat × Nat)) : Thread :=
  let vals := if tag = Fmt.t6.code ∧ wd = 8 then vals.map (fun p => (p.1, p.2 % 64)) else vals
  (distinct (vals.map (fun p => p.1 / (256 / wd)))).foldl
    (fun t g => t.vwrite d wd g (vals.filter (fun p => p.1 / (256 / wd) == g))) t

/-- Effects on the registers and flags of the thread in focus. -/
def State.applyRegs (s : State) (w : Work) (e : Effects) : State :=
  let t := s.me
  let t := match w.op.vwrites with
    | some d => if (t.port d).isSome then t else t.vwriteAll d w.vt.width w.tag e.vals
    | none => t
  let t := match w.op.kwrites with
    | some k => t.kwrite k e.vals
    | none => t
  let t := match w.op.ewrites with
    | some r => t.ewrite r e.vals
    | none => t
  { s with me := { t with flags := t.flags.or e.flags } }

/-- tree of 07 R162 over a list whose length is a power of two. -/
def sumTree (f : FVal × Flags → FVal × Flags → FVal × Flags) : Nat → List (FVal × Flags) → FVal × Flags
  | 0, l => l.headD (.nan false, Flags.none)
  | n + 1, l =>
    if l.length ≤ 1 then l.headD (.nan false, Flags.none)
    else f (sumTree f n (l.take (l.length / 2))) (sumTree f n (l.drop (l.length / 2)))

/-- One combining step of a floating reduction or scan in format W (07 R162, 09 R217). -/
def combine (t : Thread) (op : ROp) (f : Fmt) (a b : FVal × Flags) : FVal × Flags :=
  let mode := Mode.ofRm t.rm
  let x : Exact := match op with
    | .add => fAdd mode a.1 b.1
    | .min => fMinMax false a.1 b.1
    | _ => fMinMax true a.1 b.1
  let r := rounded f mode t.fz x
  ((layoutOf f).decode r.bits, (a.2.or b.2).or r.flags)

/-- The floating identity of a reduction (07 R162, 09 R217). -/
def floatIdentity (op : ROp) : FVal := if op = .add then .fin true 0 0 else .nan false

/-- An integer combining step (09 R217), on bits. -/
def combineInt (op : ROp) (w : Nat) (nat : Bool) (a b : Nat) : Nat :=
  match op with
  | .add => (a + b) % 2 ^ w
  | .min => if integerOf w nat b < integerOf w nat a then b else a
  | .max => if integerOf w nat a < integerOf w nat b then b else a
  | .and => a &&& b
  | .or => a ||| b
  | .xor => a ^^^ b

def intIdentity (op : ROp) (w : Nat) (nat : Bool) : Nat :=
  match op with
  | .min => if nat then 2 ^ w - 1 else 2 ^ (w - 1) - 1
  | .max => if nat then 0 else 2 ^ (w - 1)
  | .and => 2 ^ w - 1
  | _ => 0

/-- Active elements of a reduction's source as bits, by index; inactive ones are absent. -/
def State.activeValues (s : State) (w : Work) (a : VReg) (wd : Nat) : Except Stop (List (Nat × Nat)) :=
  (List.range w.vl).foldlM (fun acc i => do
    if ← s.me.kread w.op.mask.1 i then
      let x ← s.operand w a wd i
      .ok (acc ++ [(i, x)])
    else .ok acc) []

/-- A floating reduction (07 R162). -/
def floatReduce (t : Thread) (op : ROp) (f : Fmt) (vl : Nat) (vals : List (Nat × Nat)) (seed : Nat) : Nat × Flags :=
  let e := 256 / f.width
  let start (b : Nat) : FVal × Flags := (t.fval f b, Flags.none)
  let elem (i : Nat) : FVal × Flags :=
    match vals.find? (fun p => p.1 == i) with
    | some p => start p.2
    | none => (floatIdentity op, Flags.none)
  let groupSum (g : Nat) : FVal × Flags := sumTree (combine t op f) e ((List.range e).map (fun j => elem (g * e + j)))
  let groups := List.range ((vl + e - 1) / e)
  let laneSum (l : Nat) : Option (FVal × Flags) :=
    match (groups.filter (fun g => g % t.lanes == l)).map groupSum with
    | [] => none
    | p :: r => some (r.foldl (combine t op f) p)
  match (List.range t.lanes).filterMap laneSum with
  | [] => (seed, Flags.none)
  | p :: r =>
    let x := combine t op f (r.foldl (combine t op f) p) (start seed)
    let b := roundFmt f .rne false x.1
    (b.bits, x.2)

def State.reduce (s : State) (w : Work) (op : ROp) (ty : Ty) (a : VReg) : Except Stop Effects := do
  let f := ty.fmt
  let vals ← s.activeValues w a f.width
  let seed := scalarFor f (w.scal 0)
  let r : Nat × Flags :=
    if f.isInt then
      ((vals.foldl (fun acc p => combineInt op f.width ty.nat acc p.2) seed), Flags.none)
    else floatReduce s.me op f w.vl vals seed
  let out := s.me.returned ty r.1
  .ok { Effects.none with value := some out.1, flags := r.2.or out.2 }

/-- Masked-off and tail elements of a destination (06 R121): elements VL and above only where the tail policy zeroes them. -/
def Work.tailVals (w : Work) (lanes first : Nat) : List (Nat × Nat) :=
  if w.vt.tp then ((List.range (w.vt.vlmax lanes)).filter (fun i => decide (first ≤ i))).map (fun i => (i, 0)) else []

/-- A scan (09 R218). -/
def State.scan (s : State) (w : Work) (op : ROp) (ex : Bool) (ty : Ty) (a : VReg) : Except Stop Effects := do
  let f := ty.fmt
  let step (acc x : Nat) : Nat × Flags :=
    if f.isInt then (combineInt op f.width ty.nat acc x, Flags.none)
    else
      let r := combine s.me op f (s.me.fval f acc, Flags.none) (s.me.fval f x, Flags.none)
      ((roundFmt f .rne false r.1).bits, r.2)
  let r ← (List.range w.vl).foldlM (fun (acc : Nat × Effects) i => do
    if ← s.me.kread w.op.mask.1 i then
      let x ← s.operand w a f.width i
      let n := step acc.1 x
      let act ← s.placeAct w i (if ex then acc.1 else n.1)
      .ok (n.1, acc.2.add i act n.2)
    else if w.zeroMasked then
      let act ← s.placeAct w i 0
      .ok (acc.1, acc.2.add i act Flags.none)
    else .ok acc)
    (scalarFor f (w.scal 0), Effects.none)
  .ok { r.2 with vals := r.2.vals ++ w.tailVals s.me.lanes w.vl }

/-- Elements chosen one by one from anywhere in the source (09 R219, R220): `pick i` names the source of active element i, where it
changes at all. -/
def State.moveElems (s : State) (w : Work) (a : VReg) (pick : Nat → Except Stop (Option (Option Nat))) : Except Stop Effects := do
  let wd := w.vt.width
  let r ← (List.range w.vl).foldlM (fun (acc : Effects) i => do
    if ← s.me.kread w.op.mask.1 i then
      match ← pick i with
      | none => .ok acc
      | some none =>
        let act ← s.placeAct w i 0
        .ok (acc.add i act Flags.none)
      | some (some j) =>
        let x ← s.operand w a wd j
        let act ← s.placeAct w i x
        .ok (acc.add i act Flags.none)
    else if w.zeroMasked then
      let act ← s.placeAct w i 0
      .ok (acc.add i act Flags.none)
    else .ok acc) Effects.none
  .ok { r with vals := r.vals ++ w.tailVals s.me.lanes w.vl }

/-- Compress (09 R221). -/
def State.compress (s : State) (w : Work) (d a : VReg) (k : KReg) : Except Stop Effects := do
  let wd := w.vt.width
  let xs ← (List.range w.vl).foldlM (fun (acc : List Nat) i => do
    if ← s.me.kread k i then
      let x ← s.operand w a wd i
      .ok (acc ++ [x])
    else .ok acc) []
  match s.me.port d with
  | none =>
    .ok { Effects.none with
      vals := (List.range xs.length).map (fun c => (c, xs.getD c 0)) ++ w.tailVals s.me.lanes xs.length }
  | some n =>
    (List.range xs.length).foldlM (fun (acc : Effects) c => do
      let act ← s.pushAt w n (s.me.portPos n + c) c (xs.getD c 0)
      .ok (acc.add c act Flags.none)) Effects.none

/-- Bits of a mask register below VL (09 R222). -/
def State.maskBits (s : State) (w : Work) (k : KReg) : Except Stop (List Nat) :=
  (List.range w.vl).foldlM (fun acc i => do
    if ← s.me.kread k i then .ok (acc ++ [i]) else .ok acc) []

/-- The effects of an instruction of OP 0xC0 to 0xC5 (09 R216 to R222). -/
def State.meet (s : State) (w : Work) : Except Stop Effects :=
  match w.op with
  | .vred op ty _ _ a _ => s.reduce w op ty a
  | .vscan op ex ty _ _ a _ => s.scan w op ex ty a
  | .vperm _ _ a b =>
    s.moveElems w a (fun i => do
      let j ← s.operand w b w.vt.width i
      .ok (some (if j < w.vt.vlmax s.me.lanes then some j else none)))
  | .vslideUp _ _ a _ =>
    s.moveElems w a (fun i => .ok (if (w.scal 0).toNat ≤ i then some (some (i - (w.scal 0).toNat)) else none))
  | .vslideDn _ _ a _ =>
    s.moveElems w a (fun i =>
      .ok (some (if i + (w.scal 0).toNat < w.vt.vlmax s.me.lanes then some (i + (w.scal 0).toNat) else none)))
  | .vcompress k d a => s.compress w d a k
  | .kpopc _ a => do
    let l ← s.maskBits w a
    .ok { Effects.none with value := some (BitVec.ofNat 64 l.length) }
  | .kfirst _ a => do
    let l ← s.maskBits w a
    .ok { Effects.none with value := some (match l with | [] => BitVec.allOnes 64 | i :: _ => BitVec.ofNat 64 i) }
  | _ => .ok Effects.none

/-- What a group of vsegmax contributes: the active elements of it, by index (08 R185, R186). -/
def State.segParts (s : State) (w : Work) (f : Fmt) (k : KReg) (a : VReg) (elems : List Nat) : Except Stop (List (Nat × Nat)) :=
  elems.foldlM (fun (acc : List (Nat × Nat)) i => do
    if w.vl ≤ i ∨ i < w.vstart then .ok acc
    else if ← s.me.kread k i then
      let x ← s.operand w a f.width i
      .ok (acc ++ [(i, x)])
    else .ok acc) []

/-- The scale byte of block j from the contributions to it (07 R160). -/
def Thread.segByte (t : Thread) (f : Fmt) (parts : List (Nat × Nat)) (j : Nat) : Nat :=
  blockExponent ((parts.filter (fun p => p.1 / 32 == j)).map (fun p => t.fval f p.2))

end Sys2Proof.Machine
end

