-- ==== Sys2Proof/Machine/Matrix.lean ====
section
/-!
DEFINITION. The matrix engine (10): plane slabs, plpack, plunpk, mma by rows, mzero, mld and mst, with plane quantisation and block
sums (07 R161, R164).
-/
namespace Sys2Proof.Machine

/-- quant_plane (07 R161): the significand and its flags. -/
def quantPlane (v : FVal) (b p : Nat) : Int × Flags :=
  match v with
  | .fin neg m e =>
    if b = 255 then (0, flagNv)
    else
      let sh : Int := e + ((p : Int) - 2 - ((b : Int) - 127))
      let (r, inexact) := roundUnits .rne neg m sh 0
      let top := 2 ^ (p - 1) - 1
      if top < r then (signed neg top, flagNx)
      else (signed neg r, { Flags.none with nx := inexact })
  | _ => (0, flagNv)

/-- Home address of a slab byte: a virtual address of the core scratchpad window (18 R311). -/
def State.slabHome (s : State) (va : Nat) : Nat := coreSram s.me.core + (va - winCore)

/-- Read n slab bytes: the line must be full, a poisoned word fails (10 R232, R237). -/
def State.slabRead (s : State) (va n : Nat) : Except Stop Nat :=
  let h := s.slabHome va
  if s.mem.isEmptyAt h n then .error .wait
  else if (s.mem.poisonAt h n).isSome then .error (.fail ⟨cPoison, srcMatrix, 0, BitVec.ofNat 64 (va / 8 * 8), 0⟩)
  else .ok (s.mem.number h n)

/-- plane_q (10 R228) of element k from the plane words of a row, plane 0 first. -/
def planeQ (words : List Nat) (k : Nat) : Int :=
  let p := words.length
  let q := ((List.range (p - 1)).map (fun i => if (words.getD i 0).testBit k then 2 ^ i else 0)).sum
  (q : Int) - (if (words.getD (p - 1) 0).testBit k then ((2 ^ (p - 1) : Nat) : Int) else 0)

/-- Plane words and scale byte of row r of the slab at base (10 R227). -/
def State.slabWords (s : State) (base r p : Nat) : Except Stop (List Nat) :=
  (List.range p).foldlM (fun (acc : List Nat) i => do
    let x ← s.slabRead (base + 128 * i + 4 * r) 4
    .ok (acc ++ [x])) []
def State.slabScale (s : State) (base r p : Nat) : Except Stop Nat := s.slabRead (base + 128 * p + r) 1
def State.slabRow (s : State) (base r p : Nat) : Except Stop (List Nat × Nat) := do
  let words ← s.slabWords base r p
  let b ← s.slabScale base r p
  .ok (words, b)

/-- block_sum (07 R164): the contribution of one K-block added to acc, in FP32 with RNE. -/
def blockSum (fz : Bool) (acc : Nat × Flags) (a b : List Nat × Nat) : Nat × Flags :=
  let add (v : FVal) (fl : Flags) : Nat × Flags :=
    let flushed := (fp32.decode acc.1).flush fp32 fz
    let r := rounded .fp32 .rne fz (fAdd .rne flushed v)
    (r.bits, (acc.2.or fl).or r.flags)
  if a.2 = 255 ∨ b.2 = 255 then add (.nan false) flagNv
  else
    let sum : Int := ((List.range 32).map (fun k => planeQ a.1 k * planeQ b.1 k)).sum
    let e : Int := ((a.2 : Int) - 127 - a.1.length + 2) + ((b.2 : Int) - 127 - b.1.length + 2)
    let v := roundFmt .fp32 .rne fz (.fin (decide (sum < 0)) sum.natAbs e)
    add (fp32.decode v.bits) v.flags

/-- Element (i, j) of a tile, and its row with elements replaced (10 R225). -/
def MFile.row (f : MFile) (i : Nat) : BitVec 1024 := f.rows[i % 32]'(by omega)
def tilePart (row : BitVec 1024) (j : Nat) : Nat := (row.extractLsb' (32 * j) 32).toNat
def setTilePart (row : BitVec 1024) (p : Nat × Nat) : BitVec 1024 :=
  (row &&& ~~~((BitVec.ofNat 1024 (2 ^ 32 - 1)) <<< (32 * p.1))) ||| ((BitVec.ofNat 1024 (p.2 % 2 ^ 32)) <<< (32 * p.1))

/-- Write columns of a tile row: dirty mark, poison of words written whole (10 R225, 19 R344). -/
def Thread.tileWrite (t : Thread) (m : MReg) (i : Nat) (cols : List (Nat × Nat)) (tag : BitVec 4) : Thread :=
  let f := t.mreg m
  let words := (List.range 16).filter (fun n => cols.any (fun p => p.1 == 2 * n) && cols.any (fun p => p.1 == 2 * n + 1))
  t.setMreg m ⟨f.rows.set (i % 32) (cols.foldl setTilePart (f.row i)) (by omega), tag, true,
    words.foldl (fun p n => p &&& ~~~(BitVec.twoPow 512 (16 * (i % 32) + n))) f.poison⟩

/-- Element (i, j) of a tile, where its word is not poisoned. -/
def Thread.tileRead (t : Thread) (m : MReg) (i j : Nat) : Except Stop Nat :=
  if (t.mreg m).poison.getLsbD (16 * (i % 32) + j / 2) then .error (.fail { regPoison 2 m.toNat with src := srcMatrix })
  else .ok (tilePart ((t.mreg m).row i) j)

/-- One output row of mma (10 R236): the new columns and the flags. -/
def State.mmaRow (s : State) (w : Work) (pa pb : Nat) (m : MReg) (i : Nat) : Except Stop (List (Nat × Nat) × Flags) := do
  let c := w.scal 2
  let kb := (c.extractLsb' 0 16).toNat / 32
  let arow := (c.extractLsb' 16 5).toNat + i
  let bcol := (c.extractLsb' 21 5).toNat
  (List.range (shapeCols w.shape)).foldlM (fun (out : List (Nat × Nat) × Flags) j => do
    let old ← s.me.tileRead m i j
    let r ← (List.range kb).foldlM (fun (acc : Nat × Flags) b => do
      let a ← s.slabRow ((w.scal 0).toNat + b * 128 * (pa + 1)) arow pa
      let bb ← s.slabRow ((w.scal 1).toNat + b * 128 * (pb + 1)) (bcol + j) pb
      .ok (blockSum s.me.fz acc a bb)) (old, Flags.none)
    .ok (out.1 ++ [(j, r.1)], out.2.or r.2)) ([], Flags.none)

/-- Address of element (i, j) of a tile in memory (10 R239). -/
def tileAddress (w : Work) (off : Imm19) (i j : Nat) : Word :=
  w.scal 0 + off.signExtend 64 + BitVec.ofNat 64 i * w.scal 1 + BitVec.ofNat 64 (4 * j)

/-- One row of mld: the columns loaded. -/
def State.mldRow (s : State) (w : Work) (off : Imm19) (i : Nat) : Except Stop (List (Nat × Nat)) :=
  (List.range (shapeCols w.shape)).foldlM (fun (acc : List (Nat × Nat)) j =>
    match s.getElem w.place 0 w.since .tile (tileAddress w off i j) 4 with
    | .error m => .error (m.stop srcMatrix 0)
    | .ok l => .ok (acc ++ [(j, leNat l)])) []

/-- One row of mst: the bytes stored. -/
def State.mstRow (s : State) (w : Work) (off : Imm19) (m : MReg) (i : Nat) : Except Stop Out1 :=
  (List.range (shapeCols w.shape)).foldlM (fun (acc : Out1) j => do
    let x ← s.me.tileRead m i j
    match s.putElem 0 .tile (tileAddress w off i j) (leBytes 4 x) 0xFF with
    | .error e => .error (e.stop srcMatrix 0)
    | .ok o => .ok (acc ++ o.2)) []

/-- Bytes plpack writes for block j (10 R233), and the flags of its quantisation. -/
def State.packBlock (s : State) (w : Work) (f : Fmt) (k : KReg) (p : Nat) (d : VReg) (b : EReg) (j : Nat) :
    Except Stop (List MaskedByte × Flags) := do
  let sc ← s.me.eread b j
  let row := (w.scal 1).toNat + j
  let base := s.slabHome (w.scal 0).toNat
  let qs ← (List.range 32).foldlM (fun (acc : List Int × Flags) n => do
    let i := 32 * j + n
    if w.vl ≤ i then .ok (acc.1 ++ [0], acc.2)
    else if ← s.me.kread k i then
      let x ← s.operand w d f.width i
      let q := quantPlane (s.me.fval f x) sc p
      .ok (acc.1 ++ [q.1], acc.2.or q.2)
    else .ok (acc.1 ++ [0], acc.2)) ([], Flags.none)
  let word (pl : Nat) : Nat :=
    ((List.range 32).map (fun n => if (putInt p (qs.1.getD n 0)).testBit pl then 2 ^ n else 0)).sum
  .ok ((List.range p).flatMap (fun pl => wholeBytes (base + 128 * pl + 4 * row) (leBytes 4 (word pl)))
    ++ wholeBytes (base + 128 * p + row) [BitVec.ofNat 8 sc], qs.2)

/-- plpack whole: bytes and flags. -/
def State.pack (s : State) (w : Work) (f : Fmt) (k : KReg) (p : Nat) (d : VReg) (b : EReg) : Except Stop (List MaskedByte × Flags) :=
  (List.range ((w.vl + 31) / 32)).foldlM (fun (acc : List MaskedByte × Flags) j => do
    let r ← s.packBlock w f k p d b j
    .ok (acc.1 ++ r.1, acc.2.or r.2)) ([], Flags.none)

/-- plunpk whole (10 R234). -/
def State.unpack (s : State) (w : Work) (p : Nat) : Except Stop Effects := do
  let r ← (List.range w.vl).foldlM (fun (acc : Effects) i => do
    if ← s.me.kread w.op.mask.1 i then
      let base := (w.scal 0).toNat
      let row := (w.scal 1).toNat + i / 32
      let b ← s.slabScale base row p
      if b = 255 then
        let act ← s.placeAct w i fp32.nanBits
        .ok (acc.add i act flagNv)
      else
        let words ← s.slabWords base row p
        let q := planeQ words (i % 32)
        let v := roundFmt .fp32 .rne s.me.fz (.fin (decide (q < 0)) q.natAbs ((b : Int) - 127 - p + 2))
        let act ← s.placeAct w i v.bits
        .ok (acc.add i act v.flags)
    else if w.zeroMasked then
      let act ← s.placeAct w i 0
      .ok (acc.add i act Flags.none)
    else .ok acc) Effects.none
  .ok { r with vals := r.vals ++ w.tailVals s.me.lanes w.vl }

/-- A tile instruction that performs nothing (06 R122). -/
def tileIdle (w : Work) : Bool :=
  match w.op with
  | .mzero _ => false
  | _ => decide (shapeRows w.shape = 0 ∨ shapeCols w.shape = 0 ∨ shapeRows w.shape ≤ w.vstart)

/-- The tag check the engine makes when it starts mma or mst (10 R225). -/
def Thread.tileTag (t : Thread) (w : Work) : Option Fail :=
  let check (m : MReg) : Option Fail :=
    if tileIdle w || (t.mreg m).tag == 2 then none else some { tagFail 2 (t.mreg m).tag with src := srcMatrix }
  match w.op with
  | .mma _ _ _ m _ _ _ => check m
  | .mst m _ _ _ => check m
  | _ => none

/-- One row of a tile instruction: the state with the row final. -/
def State.tileRow (s : State) (w : Work) (i : Nat) : Except Stop State :=
  match w.op with
  | .mma pa pb _ m _ _ _ => do
    let r ← s.mmaRow w (pa.toNat + 1) (pb.toNat + 1) m i
    .ok { s with me := { s.me.tileWrite m i r.1 2 with flags := s.me.flags.or r.2 } }
  | .mld m _ _ off => do
    let r ← s.mldRow w off i
    let s := s.touchReads 0 w.since .tile ((List.range (shapeCols w.shape)).map (fun j => (tileAddress w off i j, 4)))
    .ok { s with me := s.me.tileWrite m i r 2 }
  | .mst m _ _ off => do
    let r ← s.mstRow w off m i
    let s := (List.range (shapeCols w.shape)).foldl (fun (s : State) j => s.hit none (tileAddress w off i j)) s
    .ok { s with mem := s.mem.perform (some s.me.tid) (some s.me.core) (r.map (·.2)) }
  | _ => .ok s

/-- mzero (10 R239). -/
def Thread.tileZero (t : Thread) (m : MReg) : Thread := t.setMreg m ⟨Vector.replicate 32 0, 2, true, 0⟩

/-- plpack and mzero, performed whole. -/
def State.matrixWhole (s : State) (w : Work) : Except Stop State :=
  match w.op with
  | .plpack ty k fl p d _ b _ => do
    let r ← s.pack w ty.fmt k (p.toNat + 1) d b
    let mem := s.mem.perform (some s.me.tid) none r.1
    .ok { s with
      mem := if fl then mem.setFull (touchedLines r.1) else mem
      me := { s.me with flags := s.me.flags.or r.2 } }
  | .mzero m => .ok { s with me := s.me.tileZero m }
  | _ => .ok s

end Sys2Proof.Machine
end

