-- ==== Sys2Proof/Machine/Window.lean ====
section
/-!
DEFINITION. The window: issue of execute-class instructions, which element group a lane may perform, what performing it does, when an
instruction leaves, release and performing of stores, and replay (01 R19 to R21, 04 R93 to R96, 06 R126 to R135, 18 R327, 21 R383).
-/
namespace Sys2Proof.Machine

/-- The completion map of a slot (04 R94). -/
def Entry.map (e : Entry) (second : Bool) : BitVec 256 := if second then e.map1 else e.map0

/-- One slot of an entry as work. vsalsel and vsegmax begin at the start of the set or block of VSTART (08 R185, R188); a rendezvous
takes VSTART as 0 (09 R216). -/
def Entry.work (e : Entry) (place : Nat) (second : Bool) (op : EOp) : Work where
  op := op
  sc := if second then e.scal.drop e.op.xs.length else e.scal
  vl := e.vl
  vt := e.vtype
  vstart := match op with
    | .vsalsel pat _ _ _ _ _ => salSize pat * (e.vstart / salSize pat)
    | .vsegmax _ _ _ _ => 32 * (e.vstart / 32)
    | op => if op.isMeeting then 0 else e.vstart
  low := e.low
  upto := e.upto
  shape := e.shape
  second := second
  place := place
  tag := if second then e.tag1 else e.tag0
  sel := e.sel
  first := if op.isMeeting then 0 else e.vstart
  since := e.since
  prev := if second then some e.op else none

/-- The slots of an entry as work. -/
def Entry.works (e : Entry) (place : Nat) : List Work :=
  e.work place false e.op :: (e.op2.toList.map (e.work place true))

/-- Operations that complete whole (06 R128, 09 R204): control forms and rendezvous. -/
def wholeOp (op : EOp) : Bool := op.isForm || op.isRendezvous

/-- Element groups a slot has an effect on (06 R121): groups of elements below VL, of every element where the tail policy writes a
register; the group of the element vmvx returns; the groups whose bits vgam.rd samples, and those vgam.wr arms. -/
def Work.groups (t : Thread) (w : Work) : List Nat :=
  match w.op with
  | .vmvx _ _ _ _ => [if (w.scal 0).toNat < w.vl then (w.scal 0).toNat / w.vt.perGroup else 0]
  | .vgamRd _ _ => List.range (4 * t.lanes)
  | .vgamWr _ _ => (List.range (4 * t.lanes)).filter (fun g => !(w.scal 0).getLsbD g)
  | op =>
    let toReg := op.kwrites.isSome || (match op.vwrites with | some d => (t.port d).isNone | none => false)
    if w.vt.tp && toReg then List.range (4 * t.lanes * w.vt.group) else List.range ((w.vl + w.vt.perGroup - 1) / w.vt.perGroup)

/-- Whether a slot is done, and the groups of it that are not. -/
def Entry.slotDone (e : Entry) (t : Thread) (w : Work) : Bool :=
  if wholeOp w.op then e.map w.second == BitVec.allOnes 256 else (w.groups t).all (fun g => (e.map w.second).getLsbD g)

def Entry.pendingGroups (e : Entry) (t : Thread) (w : Work) : List Nat :=
  if wholeOp w.op then (if e.slotDone t w then [] else w.groups t) else (w.groups t).filter (fun g => !(e.map w.second).getLsbD g)

def Entry.complete (e : Entry) (t : Thread) : Bool := (e.works 0).all (e.slotDone t)

/-- Elements of a group. -/
def groupElems (perGroup g : Nat) : List Nat := (List.range perGroup).map (fun j => g * perGroup + j)

/-- Streams that an operation names by v28 to v31 or as a control form (09 R204, R206, R214). -/
def streamsOf (op : EOp) (v : VType) : List Nat :=
  match op with
  | .sopen n _ _ => [n.toNat]
  | .sadv n _ => [n.toNat]
  | .stend _ n => [n.toNat]
  | .sclose n => [n.toNat]
  | .fopen n _ _ => [n.toNat, n.toNat + 1]
  | .fadv n => [n.toNat, n.toNat + 1]
  | .ftend _ n => [n.toNat, n.toNat + 1]
  | .fclose n => [n.toNat, n.toNat + 1]
  | op => (List.range 4).filter (fun n => op.named.any (fun r =>
      decide (r.toNat ≤ 28 + n ∧ 28 + n < r.toNat + (if op.isGam then 1 else v.group))))

/-- Whether one of some addresses lies on a remote page; a leaf covers whole pages of 64 KB (18 R313). -/
def State.anyRemote (s : State) (l : List Word) : Bool :=
  ((l.map (fun va => va.toNat / 65536)).eraseDups).any (fun p => s.peekRemote s.env (BitVec.ofNat 64 (65536 * p)))

/-- Whether an active element of a memory form lies on a remote page (21 R383); an indexed form of the V path reaches none. -/
def State.remoteWork (s : State) (w : Work) : Bool :=
  (w.op.isLoad || w.op.isStore) && reachOf w.op != .scratch &&
    s.anyRemote (((List.range w.vl).filter (fun i => w.takes i && s.me.kget w.op.mask.1 i)).filterMap (fun i => (s.elemAddress w i).toOption))

/-- Whether an element that a slot takes from or gives to a port lies on a remote page. -/
def State.remotePort (s : State) (w : Work) : Bool :=
  (s.me.portsOf w.op).any (fun n =>
    s.anyRemote ((List.range w.vl).filterMap (fun i =>
      match s.me.elemPos w n i with
      | some p => if p < s.me.portEnd n then (s.portAddress w.place 0 w.since .plain n p).toOption else none
      | none => none)))

/-- Whether an element of an entry lies on a remote page (21 R383). -/
def State.farEntry (s : State) (k : Nat) (e : Entry) : Bool :=
  !e.ops.any wholeOp && ((e.works k).any s.remoteWork || (e.works k).any s.remotePort)

/-- Whether an operation stores through the lanes or pushes: scatters go by the Awl. -/
def Thread.pushes (t : Thread) (op : EOp) : Bool := (op.isStore && !op.isAwl) || (op.vwrites.bind t.port).isSome

/-- Whether an entry is performed as one unit, once it is the oldest: a store or push to other packages, of which the elements below one whose
check fails are sent (21 R383). -/
def State.unit (s : State) (k : Nat) (e : Entry) : Bool := e.ops.any s.me.pushes && s.farEntry k e

/-- A part of a register that an instruction reads or writes: element groups of a vector register (06 R117), bits of a mask, bytes of a
scale register (08 R186), by the file codes of 04 R98. -/
structure Span where
  file : Nat
  reg : Nat
  lo : Nat
  hi : Nat
  deriving DecidableEq, Repr

def Span.meets (a b : Span) : Bool := a.file == b.file && a.reg == b.reg && decide (a.lo < b.hi ∧ b.lo < a.hi)

/-- Groups of a source register that group g of a slot reads. -/
def Work.sourceGroups (w : Work) (r : VReg) (g : Nat) : List Nat :=
  let elems := (groupElems w.vt.perGroup g).filter (fun i => decide (i < w.vl))
  let rows (b : VReg) (re : BitVec 12) : List Nat :=
    if r = b then distinct (elems.map (fun i => i / (re.toNat + 1) / w.vt.perGroup)) else []
  match w.op with
  | .vcvt _ _ part dst src _ _ =>
    distinct ((elems.filterMap (cvtSource part.toNat dst.fmt src.fmt)).map (fun j => j / (256 / src.fmt.width)))
  | .vgath _ _ _ _ b _ re => rows b re
  | .vscat _ _ d _ b _ re => rows b re ++ (if r = d then [g] else [])
  | .vscadd _ _ d _ b _ re => rows b re ++ (if r = d then [g] else [])
  | _ => [g]

/-- Parts of a register group that is storage. -/
def Thread.vSpans (t : Thread) (r : VReg) (gs : List Nat) : List Span :=
  if (t.port r).isSome then []
  else gs.map (fun g => let h := groupHome t.lanes r g; ⟨0, h.1 % 32, h.2, h.2 + 1⟩)

/-- Bits of a mask, and bytes of a scale register, that group g of a slot names. -/
def Work.kSpan (w : Work) (g : Nat) (k : KReg) : List Span :=
  if k = 0 then [] else [⟨1, k.toNat, g * w.vt.perGroup, (g + 1) * w.vt.perGroup⟩]
def Work.eSpan (w : Work) (g : Nat) (e : EReg) : Span :=
  ⟨3, e.toNat, g * w.vt.perGroup / 32, ((g + 1) * w.vt.perGroup - 1) / 32 + 1⟩

/-- What group g of a slot reads and writes (04 R95, 06 R132). -/
def Work.reads (t : Thread) (w : Work) (g : Nat) : List Span :=
  w.op.vreads.flatMap (fun r => t.vSpans r (w.sourceGroups r g)) ++ w.op.kreads.flatMap (w.kSpan g) ++ w.op.ereads.toList.map (w.eSpan g)
def Work.writes (t : Thread) (w : Work) (g : Nat) : List Span :=
  w.op.vwrites.toList.flatMap (fun r => t.vSpans r [g]) ++ w.op.kwrites.toList.flatMap (w.kSpan g) ++ w.op.ewrites.toList.map (w.eSpan g)

/-- Whether parts depend on one another: a read after a write, a write after a read, a write after a write (04 R95). -/
def clash (reads writes olderReads olderWrites : List Span) : Bool :=
  writes.any (fun p => olderReads.any p.meets || olderWrites.any p.meets) || reads.any (fun p => olderWrites.any p.meets)

/-- What a slot still reads: in the groups that it has not completed, and in those that a trap makes incomplete, for a replay reads them again (04 R94,
R95); a compress replays whole. -/
def Entry.readsLeft (e : Entry) (t : Thread) (w : Work) : List Span :=
  (e.pendingGroups t w ++ (if wholeOp w.op && !e.held.isEmpty then w.groups t else e.recalled w.second)).flatMap (w.reads t)

/-- What a slot still writes. -/
def Entry.writesLeft (e : Entry) (t : Thread) (w : Work) : List Span := (e.pendingGroups t w).flatMap (w.writes t)

/-- Whether group g of a slot depends on a slot o of an older entry (04 R95). -/
def Thread.follows (t : Thread) (older : Entry) (o w : Work) (g : Nat) : Bool :=
  clash (w.reads t g) (w.writes t g) (older.readsLeft t o) (older.writesLeft t o)

/-- A load into a register, whose groups land in any order while its lanes go on (06 R131, R134). -/
def Entry.loads (t : Thread) (e : Entry) : Bool :=
  e.op2.isNone && e.op.isLoad && (e.op.vwrites.bind t.port).isNone

/-- The entries older than entry k, with their places. -/
def Thread.olderThan (t : Thread) (k : Nat) : List (Nat × Entry) := (List.range k).zip (t.win.take k)

/-- Whether group g of a slot of entry j can start (06 R132): nothing that it reads or writes is still to be written, or read, by an older entry. -/
def State.startable (s : State) (j : Nat) (o : Work) (g : Nat) : Bool :=
  (s.me.olderThan j).all (fun p => (p.2.works p.1).all (fun q => !s.me.follows p.2 q o g))

/-- Whether every group of a slot that a lane has still to complete, of those below a limit, can start. -/
def State.allStartable (s : State) (j : Nat) (older : Entry) (o : Work) (lane limit : Nat) : Bool :=
  (older.pendingGroups s.me o).all (fun g => g % s.me.lanes != lane || decide (limit ≤ g) || s.startable j o g)

/-- An entry whose groups may be outstanding in a lane while it goes on: a load whose groups there have all started, an armed register, a matrix
instruction in its queue. -/
def State.passable (s : State) (j : Nat) (older : Entry) (o : Work) (lane : Nat) : Bool :=
  (older.loads s.me && s.allStartable j older o lane 256)
    || (match older.op with | .vgamWr _ _ => true | _ => false) || (older.op.isMatrix && older.mq)

/-- Whether an older slot lets its lane go on to later entries (06 R126, R128): it is done, passable, or has nothing left in the lane. A
rendezvous of no elements passes at once (09 R216). -/
def State.laneFree (s : State) (j : Nat) (older : Entry) (o : Work) (lane : Nat) : Bool :=
  older.slotDone s.me o || s.passable j older o lane || (o.op.isMeeting && o.vl == 0)
    || (!wholeOp o.op && !s.unit j older && (older.pendingGroups s.me o).all (fun g => g % s.me.lanes != lane))

/-- Whether entries are kept in order by a stream they both name: one is a control form of it, or it is open (09 R204, R207). -/
def State.streamClash (s : State) (a b : Entry) : Bool :=
  let of (e : Entry) : List Nat := e.ops.flatMap (fun op => streamsOf op e.vtype)
  (of a).any (fun n => (of b).contains n && (a.ops.any EOp.isForm || b.ops.any EOp.isForm || (s.me.stream n).opened))

/-- Elements of groups of a slot that it performs. -/
def State.liveElems (s : State) (w : Work) (gs : List Nat) : List Nat :=
  (gs.flatMap (groupElems w.vt.perGroup)).filter (fun i => decide (i < w.vl) && w.takes i && s.me.kget w.op.mask.1 i)

/-- Whether an operation reads memory in the V path: a load that does not go by the Awl, a pop (11 R241). -/
def Thread.lanesRead (t : Thread) (op : EOp) : Bool := (op.isLoad && !op.isAwl) || !(t.popsOf op).isEmpty

/-- Whether a group must follow reads of an older slot that have not been performed (11 R243, R246, R250; 09 R200): the same element of
overlapping bytes, where the older one's addresses are known, or accesses of the lane to SO pages or to its slice. -/
def State.loadClash (s : State) (j : Nat) (o : Work) (pend : List Nat) (w : Work) (g : Nat) : Bool :=
  s.me.lanesRead w.op && s.me.lanesRead o.op &&
    (let mine := s.liveElems w [g]
     let known := pend.filter (s.startable j o)
     let theirs := s.liveElems o known
     let unknown := (pend.filter (fun h => !known.contains h)).flatMap (groupElems o.vt.perGroup)
     mine.any (fun i => unknown.contains i || (theirs.contains i &&
       (s.laneReads w i).any (fun a => (s.laneReads o i).any (fun b =>
         decide (a.2.1.toNat < b.2.1.toNat + b.2.2 ∧ b.2.1.toNat < a.2.1.toNat + a.2.2)))))
     || mine.any (fun i => (s.elemOrder w i).any (fun kind =>
         theirs.any (fun n => o.lane s.me.lanes n == g % s.me.lanes && (s.elemOrder o n).contains kind))))

/-- Whether an earlier entry j lets group g of a later slot be performed (04 R95, 06 R126, R131, R132). -/
def State.lets (s : State) (j : Nat) (older : Entry) (e : Entry) (w : Work) (g : Nat) : Bool :=
  !s.streamClash older e && !(older.idle && w.op.kwrites == some older.op.mask.1) &&
    (older.works j).all (fun o =>
      s.laneFree j older o (g % s.me.lanes) && !s.me.follows older o w g && !s.loadClash j o (older.pendingGroups s.me o) w g)

/-- Whether the lane of a group has room for what the entry stores there (01 R20, 06 R135): at most 16 unreleased stores, and the next vector
store waits while st holds 64. -/
def State.storeRoom (s : State) (k : Nat) (e : Entry) (lane : Nat) : Bool :=
  let stores := e.ops.any (fun op => op.isStore || (op.vwrites.bind s.me.port).isSome)
  !stores ||
    ((e.op.isAwl || decide (s.me.st.length < 64)) &&
      decide ((((List.range s.me.win.length).zip s.me.win).filter (fun p => p.1 != k && p.2.held.any (fun h => h.lane == lane))).length < 16))

/-- Whether the reads that group g makes in its lane's order may be performed: every older store of the lane of that kind has been
(09 R200, 11 R246). -/
def State.orderReady (s : State) (k : Nat) (w : Work) (g : Nat) : Bool :=
  let stores := s.me.st.flatten ++ (s.me.win.take k).flatMap (·.held)
  !s.me.lanesRead w.op || stores.isEmpty ||
    (s.liveElems w [g]).all (fun i => (s.elemOrder w i).all (fun kind => stores.all (fun h => h.kind != kind || h.lane != g % s.me.lanes)))

/-- Whether the mask by which a slot places elements of a port is known: no older entry still writes it (09 R207). -/
def State.maskReady (s : State) (k : Nat) (w : Work) : Bool :=
  !(s.me.portsOf w.op).any (fun n => s.me.portCmp n) ||
    (s.me.olderThan k).all (fun p => p.2.complete s.me || p.2.ops.all (fun op => op.kwrites != some w.op.mask.1))

/-- Whether group g of a slot need not follow the groups below it in its lane (06 R131, R132): of a load or a pop they complete in any order once they
have started, but for accesses the lane keeps in order. -/
def State.anyOrder (s : State) (k : Nat) (e : Entry) (w : Work) (g : Nat) : Bool :=
  (e.loads s.me || (!(s.me.popsOf w.op).isEmpty && (w.op.vwrites.bind s.me.port).isNone && !w.op.isStore))
    && s.allStartable k e w (g % s.me.lanes) g
    && ((s.liveElems w ((e.pendingGroups s.me w).filter (fun h => h % s.me.lanes == g % s.me.lanes))).all (fun i => (s.elemOrder w i).isEmpty))

/-- Bytes that an access of the Awl of this thread still has to write: released scatters, and those of older entries (18 R328). -/
def State.awlBytes (s : State) (k : Nat) : List Nat :=
  let of (h : StoreGroup) : List Nat :=
    h.near.map (·.addr) ++ h.adds.flatMap (fun a => (List.range (a.fmt.width / 8)).map (fun i => a.home + i))
  s.me.gq.flatten.flatMap of ++ ((s.me.win.take k).filter (fun e => e.op.isAwl)).flatMap (fun e => e.held.flatMap of)

/-- Whether a group of a gather follows the scatters of its thread to the bytes it reads (18 R328): none of them is still to be checked, and
none of those that are writes the bytes. -/
def State.gatherReady (s : State) (k : Nat) (w : Work) (g : Nat) : Bool :=
  !(w.op.isLoad && w.op.isAwl) ||
    ((s.me.win.take k).all (fun e => !(e.op.isAwl && e.op.isStore) || e.complete s.me) &&
      (s.liveElems w [g]).all (fun i =>
        match s.elemAddress w i with
        | .error _ => true
        | .ok va =>
          match s.checkElem .load 0 .awl va (memSize (memFmt w.op)) with
          | .ok ⟨.near h, _, _⟩ => (s.awlBytes k).all (fun a => !decide (h ≤ a ∧ a < h + memSize (memFmt w.op)))
          | _ => true))

/-- Whether entry k may perform group g now (06 R126, R131, R132, R135). -/
def State.allowed (s : State) (k : Nat) (e : Entry) (g : Nat) : Bool :=
  let lane := g % s.me.lanes
  e.queued && (match e.op with | .vgamWr _ _ => false | _ => true) &&
    (if s.unit k e then decide (k = 0) && s.storeRoom k e lane
     else
      (e.works k).all (fun w =>
        ((e.pendingGroups s.me w).all (fun h => h % s.me.lanes != lane || decide (g ≤ h)) || s.anyOrder k e w g)
          && (s.me.olderThan k).all (fun p => s.lets p.1 p.2 e w g)
          && s.orderReady k w g && s.maskReady k w && s.gatherReady k w g)
        && s.storeRoom k e lane)

/-- Whether a control form may be performed: it has been reached in every lane, and no older entry names its stream (09 R204). -/
def State.formReady (s : State) (k : Nat) (e : Entry) : Bool :=
  e.queued && (s.me.olderThan k).all (fun p =>
    !s.streamClash p.2 e && (p.2.works p.1).all (fun o => (List.range s.me.lanes).all (s.laneFree p.1 p.2 o)))

/-- Replace entry k of the window. -/
def State.setEntry (s : State) (k : Nat) (e : Entry) : State := { s with me := { s.me with win := s.me.win.set k e } }

/-- Change entry k of the window. -/
def State.withEntry (s : State) (k : Nat) (f : Entry → Entry) : State :=
  match s.me.win[k]? with
  | some e => s.setEntry k (f e)
  | none => s

/-- Results of performing work. -/
inductive Ran where
  | done (s : State)
  | wait (s : State)
  | fail (s : State) (i : Nat) (f : Fail)

def Ran.mapState (f : State → State) : Ran → Ran
  | .done s => .done (f s)
  | .wait s => .wait (f s)
  | .fail s i x => .fail (f s) i x

/-- Perform work under the rounding and flush mode of the entry's position (03 R90, 07 R147). -/
def State.underMode (s : State) (e : Entry) (act : State → Ran) : Ran :=
  (act { s with me := { s.me with rm := e.rm, fz := e.fz } }).mapState
    (fun t => { t with me := { t.me with rm := s.me.rm, fz := s.me.fz } })

/-- Results of elements taken in order, up to the first that stops. -/
structure Took where
  acts : List (Nat × Act × Flags)
  stop : Option (Nat × Stop)

/-- Perform elements in order; `known` are elements of a gather that have been read already (18 R327). -/
def State.takeElems (s : State) (w : Work) (known : List (Nat × Nat)) : List Nat → Took
  | [] => ⟨[], none⟩
  | i :: r =>
    match (match known.find? (fun p => p.1 == i) with | some p => Except.ok (Act.reg p.2, Flags.none) | none => s.element w i) with
    | .error e => ⟨[], some (i, e)⟩
    | .ok (a, fl) =>
      let t := s.takeElems w known r
      ⟨(i, a, fl) :: t.acts, t.stop⟩

/-- Effects of the elements below a limit. -/
def effectsBelow (limit : Option Nat) (acts : List (Nat × Act × Flags)) : Effects :=
  acts.foldl (fun e p => if (match limit with | some n => decide (p.1 < n) | none => true) then e.add p.1 p.2.1 p.2.2 else e) Effects.none

/-- Pieces of memory by element group and ordering kind, as store buffers hold them (06 R134, 11 R248). -/
def storeGroups (w : Work) (lanes : Nat) (out : List Piece) : List StoreGroup :=
  (distinct (out.map (fun p => p.elem / w.vt.perGroup))).flatMap (fun g =>
    (distinct ((out.filter (fun p => p.elem / w.vt.perGroup == g)).map (·.kind.toNat))).map (fun kind =>
      let ps := out.filter (fun p => p.elem / w.vt.perGroup == g && p.kind.toNat == kind)
      ⟨w.second, g, g % lanes, BitVec.ofNat 2 kind, ps.flatMap (·.near), ps.flatMap (·.far), ps.flatMap (·.adds), w.op.fill, []⟩))

/-- Groups of a store in the order of its elements: slot 0 first (04 R94, 09 R198). -/
def StoreGroup.rank (h : StoreGroup) : Nat := (if h.second then 256 else 0) + h.group
def insertHeld (h : StoreGroup) : List StoreGroup → List StoreGroup
  | [] => [h]
  | o :: r => if h.rank < o.rank then h :: o :: r else o :: insertHeld h r

/-- Whether a group writes into, or adds to, an 8-byte word of this package, or writes into one of another. -/
def StoreGroup.nearWord (h : StoreGroup) (w : Nat) : Bool := h.near.any (fun b => b.addr / 8 == w) || h.adds.any (fun a => a.home / 8 == w)
def StoreGroup.farWord (h : StoreGroup) (w : Nat) : Bool := h.far.any (fun b => b.2.addr / 8 == w)

/-- Bytes for other packages leave once for an instruction (21 R383): they stand in one group of it. -/
def packFar (l : List StoreGroup) : List StoreGroup :=
  let near := (l.map (fun h => { h with far := [], bad := h.bad.filter h.nearWord })).filter (fun h => !h.near.isEmpty || !h.adds.isEmpty)
  let far := [false, true].filterMap (fun second =>
    let hs := l.filter (fun h => h.second == second)
    let fs := hs.flatMap (·.far)
    if fs.isEmpty then none else some (⟨second, 0, 0, 0, [], fs, [], false, hs.flatMap (fun h => h.bad.filter h.farWord)⟩ : StoreGroup))
  near ++ far

/-- Full/empty bits of a store with FL = 1 once a group of it is performed: a line is set full when no other group of the store
still writes into it (09 R199). -/
def Mem.fillAfter (m : Mem) (h : StoreGroup) (rest : List StoreGroup) : Mem :=
  if h.fill then
    m.setFull ((touchedLines h.near).filter (fun l => !rest.any (fun o => o.second == h.second && (touchedLines o.near).contains l)))
  else m

/-- The 128-byte lines of other packages that bytes go to (21 R383, R385). -/
def farLines (far : List (Nat × MaskedByte)) : List (Nat × Nat) :=
  (far.map (fun p => (p.1, p.2.addr / 128))).eraseDups

/-- Merge masked bytes to one for each address, the later over the earlier. -/
def mergeBytes (bs : List MaskedByte) : List MaskedByte :=
  (distinct (bs.map (·.addr))).map (fun a =>
    (bs.filter (fun b => b.addr == a)).foldl (fun acc b => ⟨a, mergeByte b acc.data, acc.mask ||| b.mask⟩) ⟨a, 0, 0⟩)

/-- A scatter-add element at its home (18 R326): a poisoned word drops the addition, and the error is counted as one consumed on the die of
the core (19 R344). -/
def State.addAtHome (s : State) (a : AddItem) : State :=
  let n := a.fmt.width / 8
  if (s.mem.poisonAt a.home n).isSome then s.withErrors (layerOf s.me.core) (fun e => { e with cons := satInc e.cons })
  else
    let old := s.mem.number a.home n
    let r : Rounded :=
      if a.fmt.isInt then noFlags ((old + a.bits) % 2 ^ a.fmt.width)
      else
        let f (b : Nat) : FVal := ((layoutOf a.fmt).decode b).flush (layoutOf a.fmt) a.fz
        rounded a.fmt (Mode.ofRm a.rm) a.fz (fAdd (Mode.ofRm a.rm) (f old) (f a.bits))
    { s with
      mem := s.mem.perform (some s.me.tid) none (wholeBytes a.home (leBytes n r.bits))
      me := { s.me with flags := s.me.flags.or r.flags } }

/-- Perform one released group of the thread in focus: in memory, or as packets (06 R134, 21 R383, R385). `core` is the core whose
data L1 a store of its lanes updates (06 R140); the Awl updates none. Words that an error has spoilt in the buffer stay poisoned (19 R344). -/
def State.performGroup (s : State) (core : Option Nat) (h : StoreGroup) (rest : List StoreGroup) : State :=
  let s := { s with mem := ((s.mem.perform (some s.me.tid) core h.near).fillAfter h rest).setPoison (h.bad.filter h.nearWord) }
  let s := (farLines h.far).foldl (fun s p =>
    s.sendMine p.1 (fun c => .write s.me.tid s.me.ep c
      (mergeBytes ((h.far.filter (fun q => q.1 == p.1 && q.2.addr / 128 == p.2)).map (·.2)))
      (h.bad.filter (fun w => h.far.any (fun q => q.1 == p.1 && q.2.addr / 8 == w) && w / 16 == p.2)))) s
  h.adds.foldl State.addAtHome s

/-- Perform every group of a store in order. -/
def State.performStore (s : State) (core : Option Nat) : List StoreGroup → State
  | [] => s
  | h :: r => (s.performGroup core h r).performStore core r

/-- Perform everything released (stores and scatters), oldest first. -/
def State.performReleased (s : State) : State :=
  let st := s.me.st
  let gq := s.me.gq
  let s := { s with me := { s.me with st := [], gq := [] } }
  gq.foldl (fun s h => s.performStore none h) (st.foldl (fun s h => s.performStore (some s.me.core) h) s)

/-- The value of entry k is on its way (01 R21): it stands in val until it arrives. -/
def State.deliver (s : State) (k : Nat) (d : XReg) (v : Word) : State :=
  let s := s.withEntry k (fun e => { e with ret := none, reserved := false })
  { s with me := { s.me with vals := s.me.vals ++ [⟨d, v⟩] } }

/-- Effects of the elements of a slot: on registers, the value it returns, and its bytes into the store buffers of its lanes. -/
def State.landSlot (s : State) (k : Nat) (w : Work) (e : Effects) (hold : Bool) : State :=
  let s := s.applyRegs w e
  let s := match w.op.returns, e.value with
    | some d, some v => s.deliver k d v
    | _, _ => s
  if hold then s.withEntry k (fun en => { en with held := (storeGroups w s.me.lanes e.out).foldl (fun l h => insertHeld h l) en.held }) else s

/-- GAM bits of the groups of the destination that are complete (06 R130). -/
def Thread.arrive (t : Thread) (w : Work) (gs : List Nat) : Thread :=
  match w.op.vwrites with
  | some d =>
    if (t.port d).isSome then t
    else gs.foldl (fun t g =>
      let h := groupHome t.lanes d g
      t.setVreg h.1 { t.vreg h.1 with gam := (t.vreg h.1).gam ||| BitVec.twoPow 32 h.2 }) t
  | none => t

/-- Mark groups of a slot complete. -/
def State.markGroups (s : State) (k : Nat) (w : Work) (gs : List Nat) : State :=
  let bits := gs.foldl (fun m g => m ||| BitVec.twoPow 256 g) 0
  let s := { s with me := s.me.arrive w gs }
  s.withEntry k (fun e => if w.second then { e with map1 := e.map1 ||| bits } else { e with map0 := e.map0 ||| bits })

/-- Mark an entry wholly complete. -/
def State.markAll (s : State) (k : Nat) (w : Work) : State :=
  ({ s with me := s.me.arrive w (w.groups s.me) }).withEntry k (fun e => { e with map0 := BitVec.allOnes 256, map1 := BitVec.allOnes 256 })

/-- The element at which taken slots stop with a fault: the lowest, slot 0 first. -/
def firstFail : List Took → Option (Nat × Fail)
  | [] => none
  | t :: r =>
    match t.stop, firstFail r with
    | some (i, .fail f), some (j, g) => if j < i then some (j, g) else some (i, f)
    | some (i, .fail f), none => some (i, f)
    | _, o => o

/-- The elements of vector registers that element i of a slot reads when it is active: register, width, index (08 R183, 09 R219, R220, 18 R323). -/
def Work.sources (t : Thread) (w : Work) (i : Nat) : List (VReg × Nat × Nat) :=
  let wd := w.vt.width
  match w.op with
  | .vcvt _ _ part dst src _ a => (cvtSource part.toNat dst.fmt src.fmt i).toList.map (fun j => (a, src.fmt.width, j))
  | .vgath _ _ _ _ b _ re => [(b, wd, i / (re.toNat + 1))]
  | .vscat _ _ d _ b _ re => [(d, wd, i), (b, wd, i / (re.toNat + 1))]
  | .vscadd _ _ d _ b _ re => [(d, wd, i), (b, wd, i / (re.toNat + 1))]
  | .vperm _ _ a b => (b, wd, i) :: (if t.vget b wd i < w.vt.vlmax t.lanes then [(a, wd, t.vget b wd i)] else [])
  | .vslideUp _ _ a _ => if (w.scal 0).toNat ≤ i then [(a, wd, i - (w.scal 0).toNat)] else []
  | .vslideDn _ _ a _ => if i + (w.scal 0).toNat < w.vt.vlmax t.lanes then [(a, wd, i + (w.scal 0).toNat)] else []
  | op => op.vreads.map (fun r => (r, wd, i))

/-- Register words that element i of a slot reads when it is active: file, number, 8-byte word; and the word of its mask bit. -/
def Work.wordsOf (t : Thread) (w : Work) (i : Nat) : List (Nat × Nat × Nat) :=
  let word (p : VReg × Nat × Nat) : Nat × Nat × Nat :=
    let h := groupHome t.lanes p.1 (p.2.2 / (256 / p.2.1))
    (0, h.1 % 32, 4 * h.2 + p.2.1 * (p.2.2 % (256 / p.2.1)) / 64)
  ((w.sources t i).filter (fun p => (t.port p.1).isNone)).map word ++ w.op.ereads.toList.map (fun e => (3, e.toNat, i / 32 / 8))
def Work.maskWord (w : Work) (i : Nat) : List (Nat × Nat × Nat) := (w.op.kreads.filter (fun k => k != 0)).map (fun k => (1, k.toNat, i / 64))

/-- Whether a register word is poisoned (files of 04 R98). -/
def Thread.wordBad (t : Thread) (p : Nat × Nat × Nat) : Bool :=
  match p.1 with
  | 0 => (t.vreg p.2.1).poison.getLsbD p.2.2
  | 1 => (t.kreg (BitVec.ofNat 3 p.2.1)).poison.getLsbD p.2.2
  | _ => (t.ereg (BitVec.ofNat 3 p.2.1)).poison.getLsbD p.2.2

/-- Poisoned register words that groups of a slot touch and that hold no element it consumes (19 R344). -/
def Thread.unconsumed (t : Thread) (w : Work) (gs : List Nat) : Nat :=
  let elems := gs.flatMap (groupElems w.vt.perGroup)
  let mine := elems.filter (fun i => decide (i < w.vl) && w.takes i)
  let used := mine.flatMap w.maskWord ++ (mine.filter (t.kget w.op.mask.1)).flatMap (w.wordsOf t)
  ((elems.flatMap (fun i => w.wordsOf t i ++ w.maskWord i)).eraseDups.filter (fun p => t.wordBad p && !used.contains p)).length

/-- Count poisoned words that were not consumed: UENC of the core's die (19 R343, R344). -/
def State.countUnconsumed (s : State) (n : Nat) : State :=
  s.withErrors (layerOf s.me.core) (fun e => { e with uenc := BitVec.ofNat 32 (min (e.uenc.toNat + n) (2 ^ 32 - 1)) })

/-- Elements of a load above a lost one that have landed: they stand (21 R384). -/
def State.landedAbove (s : State) (w : Work) (f : Fail) (i : Nat) (elems : List Nat) : List (Nat × Act × Flags) :=
  if f.code == cPeerLost && w.op.isLoad then
    (elems.filter (fun j => decide (i < j))).filterMap (fun j => match s.element w j with | .ok (a, fl) => some (j, a, fl) | .error _ => none)
  else []

/-- Elements that a slot takes up for groups of it. -/
def Work.elemsOf (w : Work) (gs : List Nat) : List Nat :=
  match w.op with
  | .vmvx _ _ _ _ => [(w.scal 0).toNat]
  | _ => gs.flatMap (groupElems w.vt.perGroup)

/-- Whether the reads of element i pass their checks (09 R197, 21 R383). -/
def State.passes (s : State) (w : Work) (i : Nat) : Bool :=
  let ok (reach : Reach) (reads : List (Word × Nat)) : Bool := reads.all (fun r =>
    match s.checkElem .load (w.lane s.me.lanes i) reach r.1 r.2 with
    | .ok _ => true
    | .error _ => false)
  ok .plain (s.elementPops w i) && ok (reachOf w.op) (s.elementReads w i)

/-- Where the remote reads of groups of a slot go, of those elements below the first whose check fails. -/
def State.farOf (s : State) (w : Work) (gs : List Nat) : List (Nat × Nat × Nat) :=
  ((s.liveElems w gs).takeWhile (s.passes w)).flatMap (fun i =>
    s.farReads 0 .plain (s.elementPops w i) ++ s.farReads 0 (reachOf w.op) (s.elementReads w i))

/-- Requests to other packages for the elements of groups of a slot (21 R383, R384): for those below the first whose check fails. -/
def State.askGroups (s : State) (w : Work) (gs : List Nat) : State := s.askAll (s.farOf w gs)

/-- Replies that have served groups of slots and that no group left needs are forgotten (21 R384); `s` is the state they were read in. -/
def State.served (s : State) (done left : List (Work × List Nat)) (t : State) : State :=
  if t.me.remote.isEmpty then t
  else
    let needed := left.flatMap (fun p => s.farOf p.1 p.2)
    t.dropReplies ((done.flatMap (fun p => s.farOf p.1 p.2)).filter (fun r => !needed.contains r))

/-- Memory after the reads of groups of a slot, and the translations of what it stores (06 R140, 18 R317). -/
def State.touchGroups (s : State) (w : Work) (gs : List Nat) : State :=
  (s.liveElems w gs).foldl (fun (s : State) i =>
    let lane := w.lane s.me.lanes i
    let stores := s.elementStores w i
    let s := (s.touchReads lane w.since .plain (s.elementPops w i)).touchReads lane (s.memSince w) (reachOf w.op) (s.elementReads w i)
    stores.foldl (fun (s : State) va => s.hit (some (s.me.physLane lane)) va) s) s

/-- Perform some groups of an entry at once: one group in its lane, or, for an entry that is one unit, all of them. Both slots read
before either writes (02 R41, 04 R94). Where an element fails, the elements below it stand; those of a store are performed again, but where
the entry is one unit they are performed now (04 R94, 21 R383). -/
def State.runGroups (s : State) (k : Nat) (e : Entry) (gs : List Nat) (asUnit : Bool) : Ran :=
  let ws := (e.works k).map (fun w => (w, gs.filter (fun g => (e.pendingGroups s.me w).contains g)))
  let left := (e.works k).map (fun w => (w, (e.pendingGroups s.me w).filter (fun g => !gs.contains g)))
  let took := ws.map (fun p => s.takeElems p.1 (if e.op.isAwl then e.parts else []) (p.1.elemsOf p.2))
  if took.any (fun t => match t.stop with | some (_, .wait) => true | _ => false) then
    .wait (ws.foldl (fun s p => s.askGroups p.1 p.2) s)
  else
    match firstFail took with
    | none =>
      let s1 := (ws.foldl (fun s p => s.touchGroups p.1 p.2) s).countUnconsumed ((ws.map (fun p => s.me.unconsumed p.1 p.2)).sum)
      .done (s.served ws left
        ((ws.zip took).foldl (fun s p => (s.landSlot k p.1.1 (effectsBelow none p.2.acts) true).markGroups k p.1.1 p.1.2) s1))
    | some (i, f) =>
      let s := if asUnit && e.ops.any s.me.pushes then s.performReleased else s
      let s' := (ws.zip took).foldl (fun t p =>
        let ef := effectsBelow (some i) p.2.acts
        let more := effectsBelow none (s.landedAbove p.1.1 f i (p.1.1.elemsOf p.1.2))
        let t := (t.landSlot k p.1.1 ef false).applyRegs p.1.1 more
        if asUnit then t.performStore (if p.1.1.op.isAwl then none else some t.me.core) (packFar (storeGroups p.1.1 t.me.lanes ef.out)) else t) s
      let s' := if asUnit then
          (e.works k).foldl (fun s w => s.markGroups k w (List.range (i / e.vtype.perGroup))) s'
        else s'
      let holds := !asUnit && (e.ops.any EOp.isStore || e.ops.any (fun op => (op.vwrites.bind s.me.port).isSome))
      let first := if e.upto ≠ 0 then e.low
        else if e.vstart / e.vtype.perGroup = i / e.vtype.perGroup then e.vstart else i / e.vtype.perGroup * e.vtype.perGroup
      let s' := { s' with me := { s'.me with remote := [] } }
      .fail (if holds then s'.withEntry k (fun e' => { e' with low := first, upto := i }) else s') i f

/-- Whether groups of a slot may be performed as far as earlier entries go. -/
def State.letAll (s : State) (k : Nat) (e : Entry) (w : Work) (gs : List Nat) : Bool :=
  gs.all (fun h => (s.me.olderThan k).all (fun p => s.lets p.1 p.2 e w h))

/-- A group of a load or pop with an element in another package (21 R383): every active element of the whole instruction is checked before any request
leaves; then its groups land one by one. Where an element fails, those below it stand, and the lowest of the instruction is reported. -/
def State.runFar (s : State) (k : Nat) (e : Entry) (g : Nat) : Ran :=
  let all := (e.works k).map (fun w => (w, e.pendingGroups s.me w))
  let whole (s : State) : Ran := if k = 0 then s.runGroups k e (all.flatMap (·.2)).eraseDups true else .wait s
  if !all.all (fun p => s.letAll k e p.1 p.2) then .wait s
  else if !all.all (fun p => (s.liveElems p.1 p.2).all (s.passes p.1)) then whole s
  else
    let asked := all.foldl (fun s p => s.askGroups p.1 p.2) s
    match asked.runGroups k e [g] false with
    | .fail _ _ _ => whole asked
    | r => r

/-- A group of a gather, scatter or scatter-add (18 R327): every element of this group and of those below it that are not done is checked
first, and of a gather read, which it keeps until their groups land. The lowest that fails is the one reported; the elements below it land or are
performed, after what the Awl has of the thread. Requests to other packages leave once every element of the instruction is checked (21 R383). -/
def State.runAwl (s : State) (k : Nat) (e : Entry) (g : Nat) : Ran :=
  let w := e.work k false e.op
  let all := e.pendingGroups s.me w
  let pend := all.filter (fun h => decide (h ≤ g))
  let took := s.takeElems w (if w.op.isLoad then e.parts else []) (w.elemsOf pend)
  if !s.letAll k e w pend || !pend.all (s.gatherReady k w) then .wait s
  else
    match took.stop with
    | none =>
      let live := s.liveElems w (pend.filter (fun h => h != g))
      let read := took.acts.filterMap (fun p => match p.2.1 with | .reg v => if live.contains p.1 then some (p.1, v) else none | _ => none)
      (s.runGroups k e [g] false).mapState (fun t => t.withEntry k (fun e' => { e' with parts := if w.op.isLoad then read else e'.parts }))
    | some (_, .wait) => if s.letAll k e w all then .wait (s.askGroups w all) else .wait s
    | some (i, .fail f) =>
      if k ≠ 0 then .fail s i f
      else
        let ef := effectsBelow (some i) took.acts
        let s1 := (s.applyRegs w ef).applyRegs w (effectsBelow none (s.landedAbove w f i (w.elemsOf all)))
        let low := packFar ((storeGroups w s.me.lanes ef.out).foldl (fun l h => insertHeld h l)
          (e.held.filter (fun h => decide (h.group < i / w.vt.perGroup))))
        let s2 := if w.op.isStore then
            (s1.me.gq.foldl (fun (s : State) h => s.performStore none h) { s1 with me := { s1.me with gq := [] } }).performStore none low
          else s1
        .fail ((s2.withEntry k (fun e' => { e' with held := e'.held.filter (fun h => !decide (h.group < i / w.vt.perGroup)) })).markGroups k w
          (pend.filter (fun h => decide (h < i / w.vt.perGroup)))) i f

/-- A group of vsegmax (08 R185, R186): its elements contribute, and every block whose last group this was is written. A fault lies at the
first element of the first unwritten block. -/
def State.runSeg (s : State) (k : Nat) (e : Entry) (ty : Ty) (kr : KReg) (a : VReg) (g : Nat) : Ran :=
  let w := e.work k false e.op
  match s.segParts w ty.fmt kr a (groupElems w.vt.perGroup g) with
  | .error .wait => .wait (s.askGroups w (e.pendingGroups s.me w))
  | .error (.fail f) => .fail s (32 * e.openBlocks.headD 0) f
  | .ok ps =>
    let parts := e.parts ++ ps
    let left := { e with map0 := e.map0 ||| BitVec.twoPow 256 g }.openBlocks
    let full := e.openBlocks.filter (fun j => !left.contains j)
    let s1 := ((s.touchGroups w [g]).countUnconsumed (s.me.unconsumed w [g])).applyRegs w
      { Effects.none with vals := full.map (fun j => (j, s.me.segByte ty.fmt parts j)) }
    .done (s.served [(w, [g])] [(w, (e.pendingGroups s.me w).filter (fun h => h != g))]
      ((s1.withEntry k (fun e' => { e' with parts := parts.filter (fun p => !full.contains (p.1 / 32)) })).markGroups k w [g]))

/-- GAM bits of register n that entries of the window still have to set (06 R130, R133): those whose group an entry writes (R121) and has not
completed. `broadcast` asks for the entries that stand in lane queues only. A mask that an older entry has still to write is taken to select
every element (log 4). -/
def Work.writesGroup (t : Thread) (w : Work) (maskKnown : Bool) (g : Nat) : Bool :=
  let on (i : Nat) : Bool := !maskKnown || t.kget w.op.mask.1 i
  match w.op with
  | .vgamWr _ _ => !(w.scal 0).getLsbD g
  | op =>
    let count := match op with
      | .vcompress _ _ _ => countBelow on w.vl
      | _ => w.vl
    (groupElems w.vt.perGroup g).any (fun i =>
      if count ≤ i then w.vt.tp
      else
        match op with
        | .vcompress _ _ _ => true
        | .vslideUp _ _ _ _ => if on i then decide ((w.scal 0).toNat ≤ i) else w.zeroMasked
        | op => w.takes i && !outsidePart op i && (on i || (w.zeroMasked && w.takesMasked i)))

/-- Whether an entry older than j of a list still writes a mask register. -/
def maskOpen (t : Thread) (l : List Entry) (j : Nat) (k : KReg) : Bool :=
  (l.take j).any (fun e => !e.complete t && e.ops.any (fun op => op.kwrites == some k))

def Thread.pendingWrites (t : Thread) (broadcast : Bool) (n : Nat) : BitVec 32 :=
  (((List.range t.win.length).zip t.win).foldl (fun (acc : Thread × BitVec 32) p =>
    let m := if broadcast && !p.2.queued then acc.2 else
      (p.2.works p.1).foldl (fun m w =>
        match w.op.vwrites with
        | none => m
        | some d =>
          if (acc.1.port d).isSome then m
          else (p.2.pendingGroups acc.1 w).foldl (fun m g =>
            let h := groupHome t.lanes d g
            if h.1 % 32 == n && w.writesGroup t (!maskOpen t t.win p.1 w.op.mask.1) g then m ||| BitVec.twoPow 32 h.2 else m) m) acc.2
    (acc.1.formNow p.2, m)) (t, 0)).2

/-- GAM of a register (06 R130): the stored bits, and 0 where an entry still has to write the group. -/
def Thread.gamOf (t : Thread) (broadcast : Bool) (n : Nat) : BitVec 32 := (t.vreg n).gam &&& ~~~(t.pendingWrites broadcast n)

/-- A group of vgam.rd (09 R223): its lane samples the bit; the value is returned once every lane has sampled its groups. -/
def State.runSample (s : State) (k : Nat) (e : Entry) (d : XReg) (a : VReg) (g : Nat) : State :=
  let w := e.work k false e.op
  let parts := e.parts ++ [(g, if (s.me.gamOf true a.toNat).getLsbD g then 1 else 0)]
  let s := (s.withEntry k (fun e' => { e' with parts := parts })).markGroups k w [g]
  if (w.groups s.me).all (fun h => parts.any (fun p => p.1 == h)) then
    s.deliver k d (((List.range 32).filter (fun h => decide (4 * s.me.lanes ≤ h) || parts.any (fun p => p.1 == h && p.2 == 1))).foldl
      (fun v h => v ||| BitVec.twoPow 64 h) 0)
  else s

/-- A control form, performed whole (09 R204, R214). -/
def State.runForm (s : State) (k : Nat) (e : Entry) : Ran :=
  let w := e.work k false e.op
  match s.streamForm k e.op (w.scal 0) e.desc with
  | .error .wait => .wait (s.askFar 0 .engine (s.me.formReads e.op e.desc))
  | .error (.fail f) => .fail s 0 f
  | .ok (t, v) =>
    let reads := s.me.formReads e.op e.desc
    let s1 := s.touchReads 0 0 .engine reads
    let s' := { s1 with me := t }
    .done (((match e.op.returns with
      | some d => s'.deliver k d v
      | none => s').markAll k w).dropReplies (s.farReads 0 .engine reads))

/-- A rendezvous of OP 0xC0 to 0xC5 (09 R216 to R222), once every lane has delivered. -/
def State.runMeet (s : State) (k : Nat) (e : Entry) : Ran :=
  let w := e.work k false e.op
  match s.meet w with
  | .error .wait => .wait (s.askGroups w (w.groups s.me))
  | .error (.fail f) => .fail s 0 f
  | .ok ef =>
    let gs := w.groups s.me
    let s1 := (s.touchGroups w gs).countUnconsumed (s.me.unconsumed w gs)
    .done (s.served [(w, gs)] [] ((s1.landSlot k w ef true).markAll k w))

/-- Rows of a tile instruction from `vstart` on. -/
def State.runRows (s : State) (k : Nat) (w : Work) : List Nat → Ran
  | [] => .done (s.markAll k w)
  | i :: r =>
    match s.tileRow w i with
    | .error .wait => .wait s
    | .error (.fail f) => .fail s i { f with src := srcMatrix }
    | .ok s' => (s'.withEntry k (fun e => { e with vstart := i + 1, map0 := e.map0 ||| BitVec.twoPow 256 i })).runRows k w r

/-- Rows that a tile instruction still has to perform. -/
def tileRows (w : Work) : List Nat :=
  if tileIdle w then [] else (List.range (shapeRows w.shape)).filter (fun i => decide (w.vstart ≤ i))

/-- A trap of a matrix instruction has SRC 10, also where an element of a port it pops or pushes fails (10 R231; log 36). -/
def Fail.ofMatrix (f : Fail) : Fail := { f with src := srcMatrix }

/-- A matrix instruction (10 R231): mma, mld and mst row by row, the others whole with VSTART 0. -/
def State.runMatrix (s : State) (k : Nat) (w : Work) : Ran :=
  match s.me.tileTag w with
  | some f => .fail s w.vstart f
  | none =>
    if w.op.isTile && (match w.op with | .mzero _ => false | _ => true) then s.runRows k w (tileRows w)
    else
      match w.op with
      | .plunpk _ p _ _ _ =>
        match s.unpack w (p.toNat + 1) with
        | .error .wait => .wait (s.askGroups w (w.groups s.me))
        | .error (.fail f) => .fail s 0 f.ofMatrix
        | .ok ef => .done ((s.landSlot k w ef true).markAll k w)
      | _ =>
        match s.matrixWhole w with
        | .error .wait => .wait (s.askGroups w (w.groups s.me))
        | .error (.fail f) => .fail s 0 f.ofMatrix
        | .ok s' =>
          let gs := w.groups s.me
          .done (s.served [(w, gs)] [] (((s'.touchGroups w gs).countUnconsumed (s.me.unconsumed w gs)).markAll k w))

/-- The mask by which an entry takes positions of ports is kept from its first group on (09 R207, R208). -/
def State.keepMask (s : State) (k : Nat) (e : Entry) : State × Entry :=
  let packs := e.ops.any (fun op => !(s.me.portsOf op).isEmpty)
  if packs && e.sel.isNone then
    let m := if e.op.mask.1 = 0 then BitVec.allOnes 16384 else (s.me.kreg e.op.mask.1).bits
    let e' := { e with sel := some m }
    (s.setEntry k e', e')
  else (s, e)

/-- One group of an entry, or all of it where it is one unit. -/
def State.runEntry (s : State) (k : Nat) (e : Entry) (g : Nat) : Ran :=
  match e.op with
  | .vgamRd d a => .done (s.runSample k e d a g)
  | .vsegmax ty kr _ a => s.runSeg k e ty kr a g
  | _ =>
    if s.unit k e then s.runGroups k e ((e.works k).flatMap (fun w => e.pendingGroups s.me w)).eraseDups true
    else if e.op.isAwl then s.runAwl k e g
    else if s.farEntry k e then s.runFar k e g
    else s.runGroups k e [g] false

/-- Where a fault lies: the trap of the oldest entry (04 R93, R99). -/
def Entry.trapOf (e : Entry) (i : Nat) (f : Fail) : Trap := ⟨f.code, f.src, f.detail, f.addr, e.pc, some i, f.stream⟩

/-- A fault of the oldest entry is detected: it is held until the trap is entered (04 R93, R112). -/
def State.reportFault (s : State) (t : Trap) : State := { s with me := { s.me with fault := some t } }

/-- What a try leaves: the new state, and whether anything was done. A fault counts once the entry is the oldest. -/
def State.settleRan (s : State) (k : Nat) (e : Entry) : Ran → State × Bool
  | .done s' => (s', true)
  | .wait s' => (s', false)
  | .fail s' i f => if k = 0 then (s'.reportFault (e.trapOf i f), true) else (s, false)

/-- Try one group of entry k, or the entry where it is a control form. -/
def State.tryGroup (s : State) (k g : Nat) : State × Bool :=
  match s.me.win[k]? with
  | none => (s, false)
  | some e =>
    if e.op.isForm then (if s.formReady k e then s.settleRan k e (s.runForm k e) else (s, false))
    else if e.op.isRendezvous || !s.allowed k e g then (s, false)
    else
      let p := s.keepMask k e
      p.1.settleRan k p.2 (p.1.underMode p.2 (fun t => t.runEntry k p.2 g))

/-- Pending work of the lanes: entries and groups in order. -/
def State.pendingWork (s : State) : List (Nat × Nat) :=
  (List.range s.me.win.length).flatMap (fun k =>
    match s.me.win[k]? with
    | none => []
    | some e =>
      if e.op.isRendezvous || e.complete s.me then []
      else if e.op.isForm then [(k, 0)]
      else ((e.works k).flatMap (fun w => e.pendingGroups s.me w)).eraseDups.map (fun g => (k, g)))

/-- Try every pending group once, in order; stop when a fault was found. -/
def State.sweep (s : State) : List (Nat × Nat) → State
  | [] => s
  | (k, g) :: r =>
    let p := s.tryGroup k g
    if p.1.me.fault.isSome then p.1 else p.1.sweep r

/-- An entry leaves the window (06 R127, R134): ports move, tags are set, its stores are released. -/
def State.commit (s : State) (k : Nat) (e : Entry) : State :=
  let t := (s.me.tagsAfter e).movePorts e
  let t := { t with win := dropAt s.me.win k }
  { s with me :=
      if e.held.isEmpty then t
      else if e.op.isAwl then { t with gq := t.gq ++ [packFar e.held] } else { t with st := t.st ++ [packFar e.held] } }

/-- Registers of the groups an entry tags. -/
def Entry.tagged (e : Entry) : List VReg := e.ops.flatMap (fun op => op.vwrites.toList.flatMap (fun d => groupRegs d e.vtype.group))

/-- Whether entry k leaves the window (04 R93): it has completed in every lane, holds no stores, stands in no queue, no older entry has
still to give one of its registers a tag or names a stream that it moves, and the mask by which it moves ports is known. -/
def State.leaves (s : State) (k : Nat) (e : Entry) : Bool :=
  e.complete s.me && e.held.isEmpty && !e.mq
    && (s.me.win.take k).all (fun o => o.tagged.all (fun r => !e.tagged.contains r) && !s.streamClash o e)
    && (!e.idle || s.maskReady k (e.work k false e.op))

/-- Entries that have completed leave the window: n places from place k on are looked at. -/
def State.retireFrom (s : State) (k : Nat) : Nat → State
  | 0 => s
  | n + 1 =>
    match s.me.win[k]? with
    | none => s
    | some e => if s.leaves k e then (s.commit k e).retireFrom k n else s.retireFrom (k + 1) n

def State.retire (s : State) : State := s.retireFrom 0 s.me.win.length

/-- Release of the oldest entry (06 R134, 18 R327): a store or scatter that every lane has completed. st takes at most 64 (01 R20). -/
def State.releaseHead (s : State) : State :=
  match s.me.win with
  | [] => s
  | e :: _ =>
    if e.complete s.me && !e.held.isEmpty && !e.mq && (e.op.isAwl || decide (s.me.st.length < 64)) then (s.commit 0 e).retire else s

/-- Release at the head of the window n times over. -/
def State.releaseHeads (s : State) : Nat → State
  | 0 => s
  | n + 1 => s.releaseHead.releaseHeads n

/-- The initial completion map of a slot: groups below its first element have nothing to do, and an armed register waits only for
the groups whose bit is 0. vmvx returns its element whatever VSTART holds (08 R180). -/
def firstMap (vt : VType) (vstart : Nat) (op : EOp) (sc : Word) : BitVec 256 :=
  let below (n : Nat) : BitVec 256 := (List.range (n / vt.perGroup)).foldl (fun m g => m ||| BitVec.twoPow 256 g) 0
  match op with
  | .vgamWr _ _ => sc.setWidth 256 ||| ~~~(BitVec.ofNat 256 (2 ^ 32 - 1))
  | .vgamRd _ _ => 0
  | .vmvx _ _ _ _ => 0
  | .vsegmax _ _ _ _ => below (32 * (vstart / 32))
  | op => if wholeOp op then 0 else below vstart

/-- Whether a thread holds a context (01 R23). -/
def Thread.holds (t : Thread) : Bool := t.status == .running || t.status == .waiting

/-- Threads that hold a context of a core. -/
def State.holders (s : State) (core : Nat) : List Thread := s.threads.filter (fun t => t.holds && t.core == core)

/-- Whether an entry holds a place in the queue of a lane (12 R261): until its groups in the lane are complete or stand in the lane's store
buffer; a control form or rendezvous until it is done, a matrix instruction until the engine completes it. -/
def Entry.inLane (t : Thread) (k lane : Nat) (e : Entry) : Bool :=
  e.queued &&
    (if e.ops.any wholeOp then e.mq || !e.complete t
     else (e.works k).any (fun w => (e.pendingGroups t w).any (fun g => g % t.lanes == lane)))

/-- Entries of a thread in the queue of a lane: its depth there (12 R261), a cbkld that every lane holds among them (08 R192). -/
def Thread.laneDepth (t : Thread) (lane : Nat) : Nat :=
  (((List.range t.win.length).zip t.win).filter (fun p => p.2.inLane t p.1 lane)).length + (if t.cbk.any (·.2) then 1 else 0)

/-- Entries in the queue of a physical lane, of every context of its core (06 R126). -/
def State.laneUsed (s : State) (core phys : Nat) : Nat :=
  ((s.holders core).map (fun t =>
    if t.lmask.getLsbD phys then t.laneDepth ((bitsOf t.lmask).filter (fun l => decide (l < phys))).length else 0)).sum

/-- Whether every granted lane can take another entry of the thread in focus: it holds fewer than 48 of them and has a free entry of its 64 (06 R126). -/
def State.laneRoom (s : State) : Bool :=
  (List.range s.me.lanes).all (fun l => decide (s.me.laneDepth l < 48)) && (bitsOf s.me.lmask).all (fun l => decide (s.laneUsed s.me.core l < 64))

/-- Queues that drain names (03 R92). A held window (04 R104) stands in no queue; its values stay reserved. A vector store or push
counts in st until it is performed; scatters do not (18 R328). -/
def Thread.cmdEmpty (t : Thread) : Bool := t.held || t.win.all (·.queued)
def Thread.valEmpty (t : Thread) : Bool := t.valuesReserved == 0
def Entry.isStoring (t : Thread) (e : Entry) : Bool :=
  e.ops.any (fun op => (op.isStore && !op.isAwl) || (op.vwrites.bind t.port).isSome)
def Thread.stEmpty (t : Thread) : Bool := t.st.isEmpty && (t.held || t.win.all (fun e => !e.isStoring t))

def execDrain (q : BitVec 3) (s : State) : Out :=
  if (!q.getLsbD 0 || s.me.cmdEmpty) && (!q.getLsbD 1 || s.me.valEmpty) && (!q.getLsbD 2 || s.me.stEmpty) then .next s.bump
  else stall s

/-- An entry for operations that have passed their checks at issue (01 R19, 04 R94): it stands in cmd, with the rounding and flush mode of
its position and the tags it will give. -/
def State.newEntry (s : State) (op : EOp) (op2 : Option EOp) (sc : List Word) (slot1 : Bool) (desc : BitVec 512) : Entry where
  word := s.me.iw
  pc := s.me.pc
  slot1 := slot1
  op := op
  op2 := op2
  scal := sc
  vl := s.me.vl
  vtype := s.me.vtype
  shape := s.me.shape
  vstart := if op.isMeeting || op.isForm then 0 else s.me.vstart.toNat
  low := 0
  upto := 0
  map0 := firstMap s.me.vtype s.me.vstart.toNat op (sc.getD 0 0)
  map1 := match op2 with
    | some o => firstMap s.me.vtype s.me.vstart.toNat o 0
    | none => BitVec.allOnes 256
  desc := desc
  queued := false
  delivered := 0
  held := []
  ret := op.returns
  reserved := op.returns.isSome
  mq := false
  rm := s.me.rm
  fz := s.me.fz
  tag0 := op.resultTag s.me.atIssue.tagOf
  tag1 := match op2 with
    | some o => o.resultTag s.me.atIssue.tagOf
    | none => 0
  sel := none
  parts := []
  since := s.me.need
  replay := false
  idle := false

/-- Whether an operation performs nothing at this VL and VSTART (06 R122): the forms that act whatever they hold, and those that
return a value, always go on; a rendezvous of the lanes takes VSTART as 0 (09 R216). -/
def performsNothing (op : EOp) (vl vstart : Nat) (shape : Word) : Bool :=
  if op.isForm || op.returns.isSome then false
  else if op.isTile then
    match op with
    | .mzero _ => false
    | _ => decide (shapeRows shape = 0 ∨ shapeCols shape = 0 ∨ shapeRows shape ≤ vstart)
  else decide (vl = 0) || (!op.isMeeting && decide (vl ≤ vstart))

/-- A fault of a check at issue is a trap at the word: nothing has entered cmd (04 R93, R98). -/
def State.issueTrap (s : State) (f : Fail) : State :=
  s.enterTrap ⟨f.code, f.src, f.detail, f.addr, s.me.pc, none, f.stream⟩

/-- Enter one entry into the window. The issue of an instruction that depends on VTYPE, or of a tile form, sets VSTART to 0 (06 R122), that of a control
form does not (09 R204, R214). -/
def State.enterEntry (s : State) (e : Entry) : State :=
  { s with me := { s.me with win := s.me.win ++ [e], vstart := if e.op.isForm then s.me.vstart else 0 } }

/-- An entry for an operation whose VSTART is VL or more: it performs nothing but that the positions of the ports it reads are consumed (09 R207). -/
def Entry.toIdle (e : Entry) : Entry := { e with idle := true, map0 := BitVec.allOnes 256, map1 := BitVec.allOnes 256 }

/-- What enters the window for an operation that performs nothing (06 R122): nothing at VL = 0, and else an idle entry where it reads a port. -/
def State.idleEntry (s : State) (e : Entry) : State :=
  if s.me.vl = 0 ∨ e.ops.all (fun op => (s.me.atIssue.popsOf op).isEmpty) then { s with me := { s.me with vstart := 0 } } else s.enterEntry e.toIdle

/-- Whether a check at issue of an operation finds a stream error that concerns a fibre whose row is still to be read: what ESTREAM.POS says is not
known before (04 R99, 09 R210), and the word waits. -/
def State.rowWait (s : State) (op : EOp) : Bool :=
  !s.me.held &&
    (match s.me.atIssue.issueFail op (op.xs.map s.getX) with
      | some f => f.code == cStream && s.me.atIssue.rowOpen (f.stream.extractLsb' 32 2).toNat
      | none => false)

/-- Issue of an execute-class operation (01 R19, 04 R104, 08 R171), with the descriptor a form has read; vmvx of an element that does
not exist returns 0, a reduction of nothing its seed. -/
def State.issueE (s : State) (op : EOp) (desc : BitVec 512) (slot1 : Bool) : Except Fail State :=
  if s.me.held then .error ⟨cWindowHeld, 0, 0, 0, 0⟩
  else
    let sc := op.xs.map s.getX
    match s.me.atIssue.issueFail op sc with
    | some f => .error f
    | none =>
      if performsNothing op s.me.vl s.me.vstart.toNat s.me.shape then .ok (s.idleEntry (s.newEntry op none sc slot1 desc))
      else .ok (s.enterEntry (s.newEntry op none sc slot1 desc))

/-- The meaning of an execute-class instruction: checks at issue and entry into the window, which the lanes then run. -/
def issueVector (s : State) (op : EOp) : Out :=
  if s.rowWait op then stall s else
  match s.issueE op 0 false with
  | .error f => .next (s.issueTrap f)
  | .ok s' => .next s'.bump

end Sys2Proof.Machine
end

