-- ==== Sys2Proof/Machine/Pairs.lean ====
section
/-!
DEFINITION. Pair words (02 R41 to R46, 08 R193): each slot as its S-form counterpart, on the registers that stood before the word.
-/
namespace Sys2Proof.Machine

/-- The execute-class operation of a slot (08 R193, 02 R43): K, Z, H zero, rounding under FCSR. -/
def slotOp (p : Slot) : Option EOp :=
  let i32 : Ty := ⟨.int32, false⟩
  let f32 : Ty := ⟨.fp32, false⟩
  let bf16 : Ty := ⟨.bf16, false⟩
  let m : Mask := ⟨0, false⟩
  let off : Imm19 := p.y.signExtend 19
  match p.pop with
  | .vaddI32 => some (.vaddInt i32 m p.d p.a (.vec p.b))
  | .vsubI32 => some (.vsubInt i32 m p.d p.a (.vec p.b))
  | .vaddF32 => some (.vaddFp f32 m .dyn p.d p.a (.vec p.b))
  | .vsubF32 => some (.vsubFp f32 m .dyn p.d p.a (.vec p.b))
  | .vmulF32 => some (.vmulFp f32 m .dyn p.d p.a (.vec p.b))
  | .vmaxF32 => some (.vmaxFp f32 m .dyn p.d p.a (.vec p.b))
  | .vminF32 => some (.vminFp f32 m .dyn p.d p.a (.vec p.b))
  | .vaddBf16 => some (.vaddFp bf16 m .dyn p.d p.a (.vec p.b))
  | .vmulBf16 => some (.vmulFp bf16 m .dyn p.d p.a (.vec p.b))
  | .vand => some (.vand m p.d p.a (.vec p.b))
  | .vor => some (.vor m p.d p.a (.vec p.b))
  | .vxor => some (.vxor m p.d p.a (.vec p.b))
  | .vmv => some (.vmv m p.d p.a)
  | .vaddF32x => some (.vaddFp f32 m .dyn p.d p.a (.scalar p.b))
  | .vmulF32x => some (.vmulFp f32 m .dyn p.d p.a (.scalar p.b))
  | .vldF32 => some (.vld f32 m p.d p.a off)
  | .vstF32 => some (.vst f32 0 false p.d p.a off)
  | _ => none

/-- An access-class slot run as its S-form counterpart (02 R41 to R43); an execute-class slot does nothing here. -/
def runSlot (p : Slot) (s : State) : Out :=
  let imm : Imm19 := p.y.signExtend 19
  let sh : BitVec 6 := p.y.extractLsb' 0 6
  match p.pop with
  | .add => execAdd p.d p.a p.b s
  | .sub => execSub p.d p.a p.b s
  | .and => execAnd p.d p.a p.b s
  | .or => execOr p.d p.a p.b s
  | .xor => execXor p.d p.a p.b s
  | .sll => execSll p.d p.a p.b s
  | .srl => execSrl p.d p.a p.b s
  | .sra => execSra p.d p.a p.b s
  | .mul => execMul p.d p.a p.b s
  | .minI64 => execMinI64 p.d p.a p.b s
  | .maxI64 => execMaxI64 p.d p.a p.b s
  | .minN64 => execMinN64 p.d p.a p.b s
  | .maxN64 => execMaxN64 p.d p.a p.b s
  | .sltI64 => execSltI64 p.d p.a p.b s
  | .sltN64 => execSltN64 p.d p.a p.b s
  | .addImm => execAddImm p.d p.a imm s
  | .andImm => execAndImm p.d p.a imm s
  | .orImm => execOrImm p.d p.a imm s
  | .xorImm => execXorImm p.d p.a imm s
  | .sllImm => execSllImm p.d p.a sh s
  | .srlImm => execSrlImm p.d p.a sh s
  | .sraImm => execSraImm p.d p.a sh s
  | .li => execLi p.d imm s
  | .ldI64 => execLdI64 p.d p.a imm s
  | .ldI32 => execLdI32 p.d p.a imm s
  | .ldN32 => execLdN32 p.d p.a imm s
  | .st64 => execSt64 p.d p.a imm s
  | .st32 => execSt32 p.d p.a imm s
  | .faddF64 => execFaddF64 .dyn p.d p.a p.b s
  | .fsubF64 => execFsubF64 .dyn p.d p.a p.b s
  | .fmulF64 => execFmulF64 .dyn p.d p.a p.b s
  | .faddF32 => execFaddF32 .dyn p.d p.a p.b s
  | .fsubF32 => execFsubF32 .dyn p.d p.a p.b s
  | .fmulF32 => execFmulF32 .dyn p.d p.a p.b s
  | _ => .next s

/-- How a slot ended: it completed, it took a trap (or its launch ended), or it holds at the word. -/
inductive SlotEnd where
  | completed | trapped | held
  deriving DecidableEq, Repr

def slotEnd (before after : State) : SlotEnd :=
  if (after.me.tip && !before.me.tip) || after.me.status == .retired then .trapped
  else if after.me.pc == before.me.pc then .held
  else .completed

def State.withX (s : State) (x : Vector Word 32) : State := { s with me := { s.me with x := x } }
def State.withOnly1 (s : State) (b : Bool) : State := { s with me := { s.me with only1 := b } }

def State.withBefore (s : State) (b : Option (Word × XReg × Word)) : State := { s with me := { s.me with before := b } }

/-- The registers after slot 1, which left state `t`, where slot 0 left `x`: its destination is written over them. -/
def afterSlot (p : Slot) (x : Vector Word 32) (s t : State) : State :=
  t.withX (match p.xDest with | some d => ((s.withX x).setX d (t.getX d)).me.x | none => x)

/-- Slot 1 from a state whose registers are those it reads; `x` are the registers as slot 0 left them, and `again` the state in which the word is tried
again where slot 1 holds (02 R41, R44). -/
def slotRun (p : Slot) (x : Vector Word 32) (start : State) (again : State → State) : Out :=
  match slotOp p with
  | some op =>
    if start.rowWait op then .next (again start)
    else
      match start.issueE op 0 true with
      | .error f => .next ((start.withX x).issueTrap f)
      | .ok t => .next (((t.withX x).withOnly1 false).withBefore none).bump
  | none =>
    match runSlot p start with
    | .next t =>
      match slotEnd start t with
      | .completed => .next (((afterSlot p x start t).withOnly1 false).withBefore none)
      | .trapped => .next (t.withX x)
      | .held => .next (again t)
    | o => o

/-- Slot 1 of a word, after slot 0 left state `s0` from `s` (02 R41, R44): it reads the registers of `s`; where it traps, the effects of slot 0
stand, ESLOT says so, and what slot 0 wrote over is kept for slot 1 alone; where it holds, the whole word is tried again. -/
def slotOne (first p : Slot) (s s0 : State) : Out :=
  slotRun p s0.me.x ((((s0.withX s.me.x).setPc s.me.pc).withOnly1 true).withBefore (first.xDest.map (fun d => (s.me.pc, d, s.getX d))))
    (fun t => ({ s with fab := t.fab, me := { s.me with remote := t.me.remote } }).withOnly1 false)

/-- The registers that slot 1 alone reads: those before the word, where slot 1 of it has trapped (02 R41). Where software has set ESLOT and EPC by hand
they are the registers as they stand (log 36). -/
def Thread.beforeWord (t : Thread) : Vector Word 32 :=
  match t.before with
  | some (pc, d, v) => if pc = t.pc then (t.setX d v).x else t.x
  | none => t.x

/-- Slot 1 alone, after an eret to a word with SLOT = 1 (02 R44). Of two execute-class slots slot 1 then enters alone, as the E slot of an
A-then-E word would (log 36). -/
def slotAlone (p : Slot) (s : State) : Out := slotRun p s.me.x (s.withX s.me.beforeWord) (fun t => t.withX s.me.x)

/-- Two execute-class slots enter as one entry or not at all (02 R44, R46). -/
def bothSlots (a b : EOp) (s : State) : Out :=
  let bad (op : EOp) : Option Fail := s.me.atIssue.issueFail op (op.xs.map s.getX)
  if s.rowWait a || ((bad a).isNone && s.rowWait b) then stall s
  else
    match (if s.me.held then some ⟨cWindowHeld, 0, 0, 0, 0⟩ else match bad a with | some f => some f | none => bad b) with
    | some f => .next (s.issueTrap f)
    | none =>
      let e := s.newEntry a (some b) (a.xs.map s.getX ++ b.xs.map s.getX) false 0
      if performsNothing a s.me.vl s.me.vstart.toNat s.me.shape then .next (s.idleEntry e).bump else .next (s.enterEntry e).bump

/-- A pair word (02 R41, R44). -/
def execPairWord (s0 s1 : Slot) (s : State) : Out :=
  if s.me.only1 then slotAlone s1 s
  else
    match slotOp s0, slotOp s1 with
    | some a, some b => bothSlots a b s
    | _, _ =>
      match runSlot s0 s with
      | .next t =>
        match slotEnd s t with
        | .completed => slotOne s0 s1 s t
        | _ => .next t
      | o => o

end Sys2Proof.Machine
end

