-- ==== Sys2Proof/Machine/Context.lean ====
section
/-!
DEFINITION. Blocks of 64 bytes read by the access processor (09 R205, 08 R191), sopen, fopen, cbkld, setvl of a stream, eret (04 R103)
and context images: vsave and vrest (04 R105 to R108).
-/
namespace Sys2Proof.Machine

/-- A read of a 64-byte block. -/
inductive BlockRead where
  | data (b : BitVec 512) (s : State)
  | wait (s : State)
  | bad (s : State) (code : BitVec 8) (detail : BitVec 12) (addr : Word)

def blockOf (l : List Byte) : BitVec 512 := BitVec.ofNat 512 (leNat l)

/-- Eight 8-byte loads from another package: asked once, taken when all have come (21 R384). -/
def State.readFarBlock (s : State) (pkg addr : Nat) (ea : Word) : BlockRead :=
  let find (k : Nat) := s.me.remote.find? (fun r => r.pkg == pkg && r.addr == addr + 8 * k && r.size == 8)
  let got := (List.range 8).filterMap find
  let mine (r : RemoteLoad) : Bool := r.pkg == pkg && decide (addr ≤ r.addr ∧ r.addr < addr + 64) && r.size == 8
  let done : State := { s with me := { s.me with remote := s.me.remote.filter (fun r => !mine r) } }
  let bytes := got.flatMap (fun r => match r.reply with | .data l => l | _ => [])
  if got.any (fun r => r.reply == .denied) then .bad done cAccess 2 ea
  else if got.any (fun r => r.reply == .lost) then .bad done cPeerLost (BitVec.ofNat 12 pkg) ea
  else if bytes.length = 64 then
    if bytes.any (·.2) then .bad done cPoison 0 (ea + BitVec.ofNat 64 (8 * ((bytes.takeWhile (fun b => !b.2)).length / 8)))
    else .data (blockOf (bytes.map (·.1))) done
  else .wait ((List.range 8).foldl (fun s k => if (find k).isNone then (s.readFar pkg (addr + 8 * k) 8).2 else s) s)

/-- A block on the S path as eight aligned loads, with the traps of 03 R72 and the wait of R73. -/
def State.readBlock (s : State) (ea : Word) : BlockRead :=
  match s.checkAccess .load ea 64 with
  | .error b => .bad s b.code b.detail ea
  | .ok x =>
    match x.place with
    | .near h =>
      if s.mem.isEmptyAt h 64 then .wait s
      else
        match s.mem.poisonAt h 64 with
        | some w => .bad s cPoison 0 (ea + BitVec.ofNat 64 (8 * w - h))
        | none => .data (blockOf (s.mem.seenBytes (if x.cached then some (s.me.core, s.me.need) else none) h 64)) ((s.afterRead x.cached s.me.need h).hit none ea)
    | .cap o => .data (blockOf (s.capBytes o 64)) s
    | .far pkg addr => s.readFarBlock pkg addr ea

/-- sopen and fopen (09 R205, R214): checks that need no memory, the descriptor, its validity; then as any control form. -/
def openStream (s : State) (op : EOp) (n : BitVec 2) (fibre : Bool) (ea : Word) : Out :=
  if s.me.held then .next (s.issueTrap ⟨cWindowHeld, 0, 0, 0, 0⟩)
  else if s.rowWait op then stall s
  else
    match s.me.atIssue.issueFail op (op.xs.map s.getX) with
    | some f => .next (s.issueTrap f)
    | none =>
      match s.readBlock ea with
      | .wait s' => stall s'
      | .bad s' code detail addr => trapA s' code detail addr
      | .data b s' =>
        if if fibre then fdValid b else sdValid b then
          match s'.issueE op b false with
          | .error f => .next (s'.issueTrap f)
          | .ok t => .next t.bump
        else .next (s'.issueTrap (streamError 2 fibre n.toNat 0))

def execSopen (n : BitVec 2) (a : XReg) (off : Imm19) (s : State) : Out :=
  openStream s (.sopen n a off) n false (s.getX a + imm19 off)
def execFopen (n : BitVec 2) (a : XReg) (off : Imm19) (s : State) : Out :=
  openStream s (.fopen n a off) n true (s.getX a + imm19 off)

/-- Whether an operation decodes or encodes K4 by the codebook (07 R158, 08 R192); a load, a store and vbcast move codes only (08 R179). -/
def usesCodebook (op : EOp) : Bool :=
  !op.isLoad && !op.isStore &&
    (match op with
      | .vbcast _ _ _ _ => false
      | .vcvt _ _ _ dst src _ _ => dst.fmt == .k4 || src.fmt == .k4
      | op => op.widthFmt == some .k4)

/-- A cbkld that carries its 64 bytes (08 R192): it enters every lane once the words before it in cmd have and each has room, and is DONE, where it
replaces the codebook, once every earlier instruction that uses the codebook has completed in every lane (06 R128), what it pushes released (04 R94). -/
def carryCodebook (b : BitVec 512) (inLanes : Bool) (s : State) : Out :=
  let entered := inLanes || (s.me.cmdEmpty && s.laneRoom)
  if entered && s.me.win.all (fun e => (e.complete s.me && e.held.isEmpty) || !e.ops.any usesCodebook) then
    .next ({ s with me := { s.me with cbk := none, codebook := Vector.ofFn (fun i => b.extractLsb' (32 * i.val) 32) } } : State).bump
  else stall { s with me := { s.me with cbk := some (b, entered) } }

/-- cbkld (08 R191, R192): the block is read once, with its traps; then it goes through cmd and the lanes. -/
def execCbkld (a : XReg) (off : Imm19) (s : State) : Out :=
  let ea := s.getX a + imm19 off
  let far : Bool := ea.toNat % 64 == 0 && (match s.checkAccess .load ea 64 with
    | .ok x => (match x.place with | .far _ _ => true | _ => false)
    | .error _ => false)
  match s.me.cbk with
  | some (b, inLanes) => carryCodebook b inLanes s
  | none =>
    if far then trapA s cAccess (detailOf .load true) ea
    else
      match s.readBlock ea with
      | .wait s' => stall s'
      | .bad s' code detail addr => trapA s' code detail addr
      | .data b s' => carryCodebook b false s'

/-- Whether the position of a stream after an entry depends on a mask or on a row that has still to be read (03 R87, 09 R207, R213). -/
def Entry.movesUnknown (t : Thread) (n : Nat) (e : Entry) : Bool :=
  e.ops.any (fun op =>
    match op with
    | .fopen _ _ _ => (streamsOf op e.vtype).contains n
    | .fadv _ => (streamsOf op e.vtype).contains n
    | .vcompress _ d _ => t.port d == some n || ((t.portsOf op).contains n && t.portCmp n)
    | op => (t.portsOf op).contains n && t.portCmp n)

/-- Whether setvl of a stream waits (03 R87): an entry of the window moves it by a number that is not known yet. -/
def Thread.streamsPending (t : Thread) (n : Nat) : Bool :=
  (t.win.foldl (fun (acc : Thread × Bool) e => (((acc.1.tagsAfter e).movePorts e).formNow e, acc.2 || e.movesUnknown acc.1 n)) (t, false)).2

/-- setvl of a stream (03 R87): what remains is counted after every earlier instruction, those of a held window among them. -/
def execSetvlStream (d a : XReg) (n : BitVec 2) (s : State) : Out :=
  if s.me.vtype.vill then trapA s cVtype 0 0
  else if s.me.streamsPending n.toNat then stall s
  else setVl s d (min (s.getX a).toNat (s.me.atIssue.remaining n.toNat))

/-- eret (04 R103): the window is replayed as the lanes run it (R96). -/
def execEret (s : State) : Out := supervisorOnly s (fun s => .next s.leaveTrap)

/-- Images: 8-byte words with their poison. -/
abbrev Image := List (Word × Bool)

/-- Bytes as image words without poison. -/
def plainWords : List Byte → Image
  | a :: b :: c :: d :: e :: f :: g :: h :: r => (h ++ g ++ f ++ e ++ d ++ c ++ b ++ a, false) :: plainWords r
  | _ => []

/-- A bit field as n image words, with the poison marks of the words. -/
def bitWords (n : Nat) (bits poison : Nat) : Image :=
  (List.range n).map (fun i => (BitVec.ofNat 64 (bits / 2 ^ (64 * i)), poison.testBit i))

/-- A number as k bytes, least significant first. -/
def field (k n : Nat) : List Byte := leBytes k n

def boolNum (l : List Bool) : Nat := l.foldr (fun b n => 2 * n + b.toNat) 0

/-- Dirty marks of the four files (04 R107). -/
structure Dirty where
  v : List Bool
  k : List Bool
  m : List Bool
  e : List Bool

/-- Image length from dirty marks, extents and number of entries (04 R106). -/
def imageSize (d : Dirty) (wx : List Nat) (nwin : Nat) : Nat :=
  1024 + ((d.v.zip wx).map (fun p => if p.1 then 32 * p.2 else 0)).sum + 2048 * (d.k.filter (·)).length
    + 4096 * (d.m.filter (·)).length + 256 * (d.e.filter (·)).length + 128 * nwin

def Thread.dirty (t : Thread) : Dirty :=
  ⟨t.v.toList.map (·.dirty), t.k.toList.map (·.dirty), t.m.toList.map (·.dirty), t.e.toList.map (·.dirty)⟩

def Thread.imageSize (t : Thread) : Nat := Machine.imageSize t.dirty (t.v.toList.map (·.wx)) t.win.length

/-- SHAPE (06 R125). -/
def Thread.shapeWord (t : Thread) : Word := BitVec.ofNat 64 (t.rows.toNat + 256 * t.cols.toNat)

/-- The commit vector (04 R107): for each lane the oldest entry incomplete in it, or 0xFF. -/
def Thread.commitByte (t : Thread) (lane : Nat) : Nat :=
  if t.lanes ≤ lane then 0xFF
  else
    ((List.range t.win.length).find? (fun k =>
      match t.win[k]? with
      | some e => (e.works k).any (fun w =>
          if wholeOp w.op then !e.slotDone t w else (e.pendingGroups t w).any (fun g => g % t.lanes == lane))
      | none => false)).getD 0xFF

/-- The image header (04 R107). -/
def Thread.imageHeader (t : Thread) : Image :=
  plainWords (field 8 0x53430001 ++ field 4 t.imageSize ++ field 1 t.lanes ++ field 1 t.win.length ++ field 2 0
    ++ field 8 t.vl ++ field 8 t.vtype.word.toNat ++ field 8 t.vstart.toNat ++ field 8 t.shapeWord.toNat
    ++ field 4 (boolNum t.dirty.v) ++ field 1 (boolNum t.dirty.k) ++ field 1 (boolNum t.dirty.m) ++ field 1 (boolNum t.dirty.e)
    ++ field 1 0 ++ (List.range 8).flatMap (fun l => field 1 (t.commitByte l)))
  ++ plainWords ((List.range 32).flatMap (fun n => field 4 (t.gamOf false n).toNat) ++ t.v.toList.flatMap (fun f => field 1 f.wx))
  ++ plainWords (field 18 ((t.v.toList.map (·.tag) ++ t.m.toList.map (·.tag)).foldr (fun g n => 16 * n + g.toNat) 0) ++ field 14 0)
  ++ (List.range 4).flatMap (fun n => bitWords 8 (t.savedStream n).toNat 0)
  ++ plainWords (t.codebook.toList.flatMap (fun c => field 4 c.toNat)) ++ bitWords 56 0 0

/-- Whether an entry holds a descriptor (09 R205). -/
def opensStream : EOp → Bool
  | .sopen _ _ _ => true
  | .fopen _ _ _ => true
  | _ => false

/-- A window entry of an image (04 R107). -/
def Entry.image (e : Entry) : Image :=
  let maps : Nat := if opensStream e.op then e.desc.toNat
    else e.map0.toNat + (if e.op2.isSome then e.map1.toNat * 2 ^ 256 else 0)
  plainWords (field 8 e.word.toNat ++ (List.range 3).flatMap (fun n => field 8 (e.scal.getD n 0).toNat) ++ field 8 e.vl
    ++ field 4 (e.vtype.word.toNat % 2 ^ 32) ++ field 4 (e.shape.toNat % 2 ^ 32)
    ++ field 4 (e.slot1.toNat + 2 * e.op2.isSome.toNat) ++ field 4 0 ++ field 8 e.pc.toNat) ++ bitWords 8 maps 0

/-- Register data of an image (04 R106). -/
def Thread.imageRegs (t : Thread) : Image :=
  t.v.toList.flatMap (fun f => if f.dirty then
      (List.range f.wx).flatMap (fun g => bitWords 4 (f.groupAt g).toNat (f.poison.toNat / 2 ^ (4 * g))) else [])
  ++ t.k.toList.flatMap (fun f => if f.dirty then bitWords 256 f.bits.toNat f.poison.toNat else [])
  ++ t.m.toList.flatMap (fun f => if f.dirty then
      (List.range 32).flatMap (fun r => bitWords 16 ((f.rows.toList.getD r 0).toNat) (f.poison.toNat / 2 ^ (16 * r))) else [])
  ++ t.e.toList.flatMap (fun f => if f.dirty then bitWords 32 f.bits.toNat f.poison.toNat else [])

def Thread.image (t : Thread) : Image := t.imageHeader ++ t.imageRegs ++ t.win.flatMap Entry.image

/-- Home of the 256-byte part of an image at an address; a remote page is not allowed (04 R105). -/
def State.imagePart (s : State) (acc : Acc) (va : Word) : Except Bad (Nat × Bool) :=
  match s.translate s.env acc none va with
  | .error b => .error b
  | .ok x =>
    match x.place with
    | .near h => .ok (h, x.cached)
    | .cap _ => .error ⟨cAccess, detailOf acc false⟩
    | .far _ _ => .error ⟨cAccess, detailOf acc true⟩

/-- Put image words at a home: a poisoned word is written poisoned (19 R344). -/
def State.putWords (s : State) (h : Nat) (ws : Image) : State :=
  ((List.range ws.length).zip ws).foldl (fun s p =>
    let a := h + 8 * p.1
    let m := s.mem.perform (some s.me.tid) (some s.me.core) (wholeBytes a (leBytes 8 p.2.1.toNat))
    { s with mem := if p.2.2 then m.setPoison [a / 8] else m }) s

/-- Write an image part by part; the first part that fails stops it. -/
def State.writeImage (s : State) (base : Word) : Nat → Image → State × Option (Bad × Word)
  | 0, _ => (s, none)
  | n + 1, ws =>
    if ws.isEmpty then (s, none)
    else
      match s.imagePart .store base with
      | .error b => (s, some (b, base))
      | .ok (h, _) => (s.putWords h (ws.take 32)).writeImage (base + 256) n (ws.drop 32)

/-- Whether vsave and vrest may go on (04 R106, R108). -/
def Thread.imageReady (t : Thread) : Bool := (t.win.isEmpty || t.held) && t.st.isEmpty

/-- vsave (04 R105, R106). The registers that the entries return values to stay pending (R101), with their entries of val but for one that a trap
has freed (03 R91). -/
def vsaveNow (d a : XReg) (s : State) : Out :=
  let base := s.getX a
  if !s.me.imageReady then stall s
  else if base.toNat % 256 ≠ 0 then trapA s cMisaligned (detailOf .store (s.peekRemote s.env base)) base
  else
    match s.writeImage base 356 s.me.image with
    | (s', some (b, va)) => trapA s' b.code b.detail va
    | (s', none) =>
      finish { s' with me := { s'.me with
        win := []
        held := false
        owed := s.me.owed ++ s.me.win.filterMap (fun e => e.ret.map (fun r => (r, e.reserved)))
        v := s'.me.v.map (fun f => { f with gam := BitVec.allOnes 32 }) } } d (BitVec.ofNat 64 s.me.imageSize)

def execVsave (d a : XReg) (s : State) : Out := supervisorOnly s (vsaveNow d a)

/-- Image words read at a home. -/
def State.getWords (s : State) (h : Nat) (cached : Bool) (n : Nat) : Image :=
  (List.range n).map (fun i =>
    (BitVec.ofNat 64 (leNat (s.mem.seenBytes (if cached then some (s.me.core, s.me.need) else none) (h + 8 * i) 8)), (s.mem.poisonAt (h + 8 * i) 8).isSome))

/-- Parts of an image as read: words, an empty line that holds the read, or a part that fails. -/
inductive ImageRead where
  | words (l : Image)
  | wait
  | bad (b : Bad) (addr : Word)

/-- Read `left` bytes, in at most n parts of 256. -/
def State.readImage (s : State) (base : Word) (left : Nat) : Nat → ImageRead
  | 0 => .words []
  | n + 1 =>
    if left = 0 then .words []
    else
      match s.imagePart .load base with
      | .error b => .bad b base
      | .ok (h, c) =>
        if s.mem.isEmptyAt h (min left 256) then .wait
        else
          match s.readImage (base + 256) (left - 256) n with
          | .words l => .words (s.getWords h c (min left 256 / 8) ++ l)
          | r => r

/-- Bytes o to o + k - 1 of image words as a number. -/
def imageNum (ws : Image) (o k : Nat) : Nat :=
  leNat ((List.range k).map (fun i => ((ws.getD ((o + i) / 8) (0, false)).1.extractLsb' (8 * ((o + i) % 8)) 8)))

/-- Fields of a header that is being restored. -/
def imgDirty (ws : Image) : Dirty :=
  let bits (o k n : Nat) : List Bool := (List.range n).map (fun i => (imageNum ws o k).testBit i)
  ⟨bits 0x30 4 32, bits 0x34 1 8, bits 0x35 1 4, bits 0x36 1 8⟩
def imgWx (ws : Image) : List Nat := (List.range 32).map (fun i => imageNum ws (0xC0 + i) 1)
def imgNwin (ws : Image) : Nat := imageNum ws 0x0D 1
def imgSize (ws : Image) : Nat := imageSize (imgDirty ws) (imgWx ws) (imgNwin ws)

/-- MAGIC and SIZE (04 R108 check 2): SIZE agrees with the dirty marks and NWIN, which is at most 176; a larger one fails here (log 36). -/
def imgValid (ws : Image) : Bool :=
  imageNum ws 0 8 == 0x53430001 && imageNum ws 8 4 == imgSize ws && decide (imgSize ws ≤ 91136) && decide (imgNwin ws ≤ 176)

/-- VTYPE of a word. -/
def vtypeOf (w : Nat) : VType := ⟨w.testBit 63, w.testBit 6, w.testBit 5, BitVec.ofNat 2 (w / 8), BitVec.ofNat 3 w⟩

/-- The operations of an entry's word (04 R108 check 3): S-form execute-class; the E slot of an A-then-E word; both slots. -/
def entryOps (word : Word) (flags : Nat) : Option (EOp × Option EOp) :=
  match frameOf word with
  | .ok (.s f) =>
    match decodeSE f with
    | .ok op => if flags = 0 then some (op, none) else none
    | .error _ => none
  | .ok (.p b0 b1) =>
    match decodeSlots b0 b1 with
    | .ok (p0, p1) =>
      match slotOp p0, slotOp p1 with
      | none, some op => if flags = 1 then some (op, none) else none
      | some a, some b => if flags = 2 then some (a, some b) else none
      | _, _ => none
    | .error _ => none
  | _ => none

/-- A window entry read from the image at byte o; its mode and tags are those of the thread that restores it (Thread.retag). A map with more groups than
VL has is that of an entry that only moves its read ports (Entry.toIdle; log 36). -/
def imgEntry (ws : Image) (o : Nat) : Option Entry :=
  let word := BitVec.ofNat 64 (imageNum ws o 8)
  let flags := imageNum ws (o + 0x30) 4
  let maps := imageNum ws (o + 0x40) 64
  match entryOps word flags with
  | none => none
  | some (op, op2) =>
    if imageNum ws (o + 0x34) 4 ≠ 0 ∨ (!opensStream op && op2.isNone && decide (2 ^ 256 ≤ maps)) then none
    else
      let opens := opensStream op
      let vt := vtypeOf (imageNum ws (o + 0x28) 4)
      let vl := imageNum ws (o + 0x20) 8
      some {
        word := word
        pc := BitVec.ofNat 64 (imageNum ws (o + 0x38) 8)
        slot1 := flags == 1
        op := op
        op2 := op2
        scal := (List.range 3).map (fun n => BitVec.ofNat 64 (imageNum ws (o + 8 + 8 * n) 8))
        vl := vl
        vtype := vt
        shape := BitVec.ofNat 64 (imageNum ws (o + 0x2C) 4)
        vstart := 0
        low := 0
        upto := 0
        map0 := if opens then 0 else BitVec.ofNat 256 maps
        map1 := if op2.isSome then BitVec.ofNat 256 (maps / 2 ^ 256) else BitVec.allOnes 256
        desc := if opens then BitVec.ofNat 512 maps else 0
        queued := false
        delivered := 0
        held := []
        ret := op.returns
        reserved := op.returns.isSome
        mq := false
        rm := 0
        fz := false
        tag0 := 0
        tag1 := 0
        sel := none
        parts := []
        since := 0
        replay := false
        idle := !wholeOp op && maps % 2 ^ 256 == 2 ^ 256 - 1 && decide (vl < 256 * vt.perGroup) }

/-- Entries of the image, or none where one of them is no entry. -/
def imgEntries (ws : Image) : Option (List Entry) :=
  let o := imgSize ws - 128 * imgNwin ws
  ((List.range (imgNwin ws)).map (fun k => imgEntry ws (o + 128 * k))).foldr
    (fun e l => match e, l with | some e, some l => some (e :: l) | _, _ => none) (some [])

/-- Words of the image from byte o as a number with their poison marks. -/
def imgBits (ws : Image) (o n : Nat) : Nat × Nat :=
  let l := (ws.drop (o / 8)).take n
  (l.foldr (fun p acc => acc * 2 ^ 64 + p.1.toNat) 0, boolNum (l.map (·.2)))

/-- Restored vector registers from byte o on. -/
def imgVregs (ws : Image) : Nat → List (Nat × Bool × Nat) → List VFile × Nat
  | o, [] => ([], o)
  | o, (r, dirty, wx) :: rest =>
    let b := if dirty then imgBits ws o (4 * wx) else (0, 0)
    let f : VFile := ⟨Vector.ofFn (fun g => if g.val < wx then BitVec.ofNat 256 (b.1 / 2 ^ (256 * g.val)) else 0),
      BitVec.ofNat 4 (imageNum ws (0xE0 + r / 2) 1 / 16 ^ (r % 2)), dirty, if dirty then wx else 0,
      BitVec.ofNat 32 (imageNum ws (0x40 + 4 * r) 4), BitVec.ofNat 128 b.2⟩
    let (l, o') := imgVregs ws (if dirty then o + 32 * wx else o) rest
    (f :: l, o')

/-- Restored registers of a file whose dirty ones take `size` bytes each. -/
def imgFile {α : Type} (ws : Image) (size : Nat) (clean : α) (f : Nat × Nat → α) : Nat → List Bool → List α × Nat
  | o, [] => ([], o)
  | o, d :: rest =>
    let x := if d then f (imgBits ws o (size / 8)) else clean
    let (l, o') := imgFile ws size clean f (if d then o + size else o) rest
    (x :: l, o')

/-- The thread with everything but its streams and window restored (04 R108). Tags of absent registers are those of creation. -/
def Thread.restoreRegs (t : Thread) (ws : Image) : Thread :=
  let d := imgDirty ws
  let (vs, o1) := imgVregs ws 1024 ((List.range 32).zip (d.v.zip (imgWx ws)))
  let (ks, o2) := imgFile ws 2048 KFile.clean (fun b => ⟨BitVec.ofNat 16384 b.1, true, BitVec.ofNat 256 b.2⟩) o1 d.k
  let (ms, o3) := imgFile ws 4096 MFile.clean
    (fun b => ⟨Vector.ofFn (fun r => BitVec.ofNat 1024 (b.1 / 2 ^ (1024 * r.val))), 0, true, BitVec.ofNat 512 b.2⟩) o2 d.m
  let (es, _) := imgFile ws 256 EFile.clean (fun b => ⟨BitVec.ofNat 2048 b.1, true, BitVec.ofNat 32 b.2⟩) o3 d.e
  { t with
    v := Vector.ofFn (fun i => let f := vs.getD i.val VFile.clean; if f.dirty then f else { VFile.clean with gam := f.gam })
    k := Vector.ofFn (fun i => ks.getD i.val KFile.clean)
    m := Vector.ofFn (fun i =>
      let f := ms.getD i.val MFile.clean
      if f.dirty then { f with tag := BitVec.ofNat 4 (imageNum ws (0xF0 + i.val / 2) 1 / 16 ^ (i.val % 2)) } else f)
    e := Vector.ofFn (fun i => es.getD i.val EFile.clean)
    vl := imageNum ws 0x10 8
    vtype := vtypeOf (imageNum ws 0x18 8)
    vstart := BitVec.ofNat 64 (imageNum ws 0x20 8)
    rows := BitVec.ofNat 6 (imageNum ws 0x28 1)
    cols := BitVec.ofNat 6 (imageNum ws 0x29 1)
    codebook := Vector.ofFn (fun i => BitVec.ofNat 32 (imageNum ws (0x200 + 4 * i.val) 4)) }

/-- The image fits a grant of `lanes` (04 R108 check 4). -/
def imgFits (ws : Image) (entries : List Entry) (lanes : Nat) : Bool :=
  (imgWx ws).all (fun n => decide (n ≤ 4 * lanes)) && entries.all (fun e => decide (e.vl ≤ e.vtype.vlmax lanes))

/-- The first entry takes VSTART; elements of a storing group below it were discarded with the window and are performed again. -/
def firstEntry (t : Thread) : List Entry → List Entry
  | [] => []
  | e :: r =>
    let v := t.vstart.toNat
    let storing := e.ops.any EOp.isStore || e.ops.any (fun op => (op.vwrites.bind t.port).isSome)
    { e with
      vstart := v
      low := if storing then v / e.vtype.perGroup * e.vtype.perGroup else 0
      upto := if storing then v else 0 } :: r

/-- Values owed that entries return again are no longer owed, and an entry of val that a trap has freed stays free until the replay (03 R91). -/
def paidOff (owed : List (XReg × Bool)) (entries : List Entry) : List (XReg × Bool) :=
  (entries.filterMap (·.ret)).foldl (fun l r => l.eraseP (fun o => o.1 == r)) owed
def freedAgain (owed : List (XReg × Bool)) (entries : List Entry) : List Entry :=
  entries.map (fun e => { e with reserved := e.ret.any (fun r => !owed.contains (r, false)) })

/-- Entries that an image places take the mode that stands, and the tags of their position (06 R124, 07 R147; log 36). -/
def Thread.retag (t : Thread) : List Entry → List Entry
  | [] => []
  | e :: r =>
    let e' := { e with
      rm := t.rm
      fz := t.fz
      tag0 := e.op.resultTag t.tagOf
      tag1 := match e.op2 with | some o => o.resultTag t.tagOf | none => 0 }
    e' :: (((t.tagsAfter e').movePorts e').formNow e').retag r

/-- Place the restored state (04 R108): a window that was held is replaced with the values it would return (log 36); streams (the bounds of a fibre's row are read again, 09 R215) and window. -/
def State.placeImage (s : State) (ws : Image) (entries : List Entry) : Out :=
  let img (n : Nat) : BitVec 512 := BitVec.ofNat 512 (imageNum ws (0x100 + 64 * n) 64)
  let base := s.me.restoreRegs ws
  match s.restoreStream img 0, s.restoreStream img 1, s.restoreStream img 2, s.restoreStream img 3 with
  | .ok a, .ok b, .ok c, .ok d =>
    let t := { base with streams := #v[a, b, c, d], remote := [], owed := paidOff base.owed entries }
    .next ({ s with me := { t with win := firstEntry t (t.retag (freedAgain base.owed entries)), held := !entries.isEmpty } }).bump
  | a, b, c, d =>
    let stops : List Stop := [a, b, c, d].filterMap (fun r => match r with | .error e => some e | .ok _ => none)
    match stops.head? with
    | some (.fail f) => .next (s.issueTrap f)
    | _ => stall (s.askFar 0 .engine ((List.range 4).flatMap (fun n =>
        let q := sdState (img n)
        if q.getLsbD 34 && !q.getLsbD 35 then rowReads (img n) (fdRow0 (img n)) ++ rowReads (img n) (fdRow0 (img n) + (q.extractLsb' 0 32).toNat)
        else [])))

/-- Virtual address of the first poisoned word of a span of image words. -/
def firstPoison (base : Word) (o n : Nat) (ws : Image) : Option Word :=
  ((List.range n).find? (fun i => (ws.getD (o / 8 + i) (0, false)).2)).map (fun i => base + BitVec.ofNat 64 (o + 8 * i))

/-- Poisoned words of the entries of an image whose header is known, as far as its parts can be read. -/
def State.entryPoison (s : State) (base : Word) (hdr : Image) : Option Word :=
  if imgNwin hdr ≤ 176 then
    let o := imgSize hdr - 128 * imgNwin hdr
    ((List.range (16 * imgNwin hdr)).find? (fun i =>
      match s.imagePart .load (base + BitVec.ofNat 64 (o + 8 * i)) with
      | .ok (h, _) => (s.mem.poisonAt h 8).isSome
      | .error _ => false)).map (fun i => base + BitVec.ofNat 64 (o + 8 * i))
  else none

/-- vrest (04 R108): the checks in their order, then the restored state. -/
def vrestNow (a : XReg) (s : State) : Out :=
  let base := s.getX a
  if !s.me.imageReady then stall s
  else if base.toNat % 256 ≠ 0 then trapA s cMisaligned (detailOf .load (s.peekRemote s.env base)) base
  else
    match s.readImage base 1024 4 with
    | .bad b va => trapA s b.code b.detail va
    | .wait => stall s
    | .words hdr =>
      match (firstPoison base 0 128 hdr).or (s.entryPoison base hdr) with
      | some va => trapA s cPoison 0 va
      | none =>
        if !imgValid hdr then trapA s cBadImage 1 base
        else
          match s.readImage base (imgSize hdr) 356 with
          | .bad b va => trapA s b.code b.detail va
          | .wait => stall s
          | .words ws =>
            match imgEntries ws with
            | none => trapA s cBadImage 3 base
            | some entries => if imgFits ws entries s.me.lanes then s.placeImage ws entries else trapA s cBadImage 2 base

def execVrest (a : XReg) (s : State) : Out := supervisorOnly s (vrestNow a)

end Sys2Proof.Machine
end

