-- ==== Sys2Proof/Machine/Copies.lean ====
section
/-!
DEFINITION. The copy engine (14 R271 to R276): the CEGO read, starting, landing, completing and faulting of copies, gang delivery.
-/
namespace Sys2Proof.Machine

/-- Change one cluster. -/
def State.withCluster (s : State) (cl : Nat) (f : Cluster → Cluster) : State :=
  { s with clusters := s.clusters.map (fun c => if c.id == cl then f c else c) }

/-- A thread by number. -/
def State.thread (s : State) (tid : Nat) : Option Thread := s.threads.find? (fun t => t.tid == tid)

/-- Change one thread. -/
def State.withThread (s : State) (tid : Nat) (f : Thread → Thread) : State :=
  s.mapThreads (fun t => if t.tid == tid then f t else t)

/-- A counted packet sent for a thread, which may be gone (21 R385, R386, R393), to a package of any route (R380). -/
def State.sendFor (s : State) (tid dst : Nat) (mk : Option Nat → Packet) : State :=
  let s' := s.sendCounted true tid dst mk
  if routeXo (s.route dst) then s' else s'.withThread tid (fun t => { t with sweep := sweepAdd dst t.sweep })

/-- Translation for an engine of a cluster (14 R273, 17 R306, 18 R317): by its own TLB, with no lane. Unit 0 is the copy engine, 1 the Welt unit;
2, with no TLB, writes the records of launches. -/
def State.engineXlat (s : State) (env : Env) (acc : Acc) (va : Word) (unit : Nat := 0) : Except Bad Xlat :=
  s.translateBy [engineTlb env.core unit] env acc none va

/-- Why an engine stops at a byte, as its fault word says (14 R275). -/
structure EngFault where
  code : BitVec 8
  addr : Word
  deriving DecidableEq, Repr

def EngFault.word (f : EngFault) : Word := f.code ++ 0#4 ++ f.addr.extractLsb' 0 52

/-- A fault of an engine in the record of its launch (15 R294): FADDR is ADDR of the fault word. -/
def EngFault.inLaunch (f : EngFault) (src : BitVec 8) (tid : Nat) (l : Launch) : Launch :=
  l.addFault f.code src tid ((f.addr.extractLsb' 0 52).setWidth 64)

/-- The identifier of a copy: the low bits of its number (14 R272). -/
def Copy.ident (c : Copy) : BitVec 16 := BitVec.ofNat 16 c.id

/-- The environment a copy translates in. -/
def Copy.env (c : Copy) : Env := ⟨c.core, 0xFF, c.root, c.priv⟩

/-- First source and destination byte of row r (14 R271). -/
def Copy.rowSrc (c : Copy) (r : Nat) : Word := c.src + BitVec.ofNat 64 r * c.sstr.signExtend 64
def Copy.rowDst (c : Copy) (r : Nat) : Word := c.dst + BitVec.ofNat 64 r * c.dstr.signExtend 64

/-- Lines of 128 bytes that a row of n bytes from an address touches. -/
def rowLines (a : Word) (n : Nat) : List Nat := spanLines a.toNat n

/-- Destination lines, by virtual address / 128, rising. -/
def Copy.lines (c : Copy) : List Nat :=
  if c.gang then [] else distinct ((List.range c.rows).flatMap (fun r => rowLines (c.rowDst r) c.len))

/-- Bytes of the copy that land in a destination line, in row order: row, source address, destination address. -/
def Copy.bytesOf (c : Copy) (line : Nat) : List (Nat × Word × Word) :=
  (List.range c.rows).flatMap (fun r =>
    let d := (c.rowDst r).toNat
    let lo := max d (128 * line)
    let hi := min (d + c.len) (128 * line + 128)
    (List.range (hi - lo)).map (fun i => (r, c.rowSrc r + BitVec.ofNat 64 (lo - d + i), BitVec.ofNat 64 (lo + i))))

/-- Home lines of scratchpad that destination lines name (14 R265, R272). -/
def State.copyHomes (s : State) (c : Copy) (lines : List Nat) : List Nat :=
  lines.filterMap (fun l =>
    match s.engineXlat c.env .store (BitVec.ofNat 64 (128 * l)) with
    | .ok ⟨.near h, _, _⟩ => if isScratch h then some (h / 128) else none
    | _ => none)

/-- Whether an address lies in a scratchpad window. -/
def State.inScratch (s : State) (env : Env) (va : Word) : Bool :=
  decide (windowRegion ≤ va.toNat) &&
    (match s.engineXlat env .store va with
      | .ok ⟨.near h, _, _⟩ => isScratch h
      | _ => false)

/-- The gang of a thread: its crew record, where that is a gang (15 R283). -/
def State.gangOf (s : State) (t : Thread) : Option (Nat × Nat) :=
  if t.crew = 0 then none else (s.crews.find? (fun c => c.num == t.crew)).bind (·.gang)

/-- A copy as the shadows of the thread in focus describe it (14 R271). -/
def State.shadowCopy (s : State) : Copy :=
  let ce (n : Fin 8) : Word := s.me.ce[n]
  let mode := ce 5
  { id := (s.cluster s.me.cluster).nextCopy
    tid := s.me.tid
    lid := s.me.lid
    root := s.me.root
    priv := s.me.priv
    core := s.me.core
    fto := s.me.fto.toNat
    src := ce 0
    dst := ce 1
    len := (ce 2).toNat
    sstr := (ce 3).extractLsb' 0 32
    dstr := (ce 3).extractLsb' 32 32
    rows := (ce 4).toNat
    gang := mode.getLsbD 0
    crew := s.me.crew
    gtag := mode.extractLsb' 1 4
    greg := mode.extractLsb' 5 5
    flag := ce 6
    fval := ce 7
    members := if mode.getLsbD 0 then (s.threads.filter (fun t => t.crew == s.me.crew && t.status != .retired)).map (·.tid) else []
    running := false
    landed := []
    remote := []
    data := none
    parked := []
    failed := none }

/-- First and last byte addresses of the rows of one side. -/
def rowEnds (start : Nat → Word) (rows len : Nat) : List (Word × Word) :=
  (List.range rows).map (fun r => (start r, start r + BitVec.ofNat 64 (len - 1)))

def minOf (l : List Nat) : Nat := l.foldl min (2 ^ 64)
def maxOf (l : List Nat) : Nat := l.foldl max 0

/-- The lowest reason of 14 R272 for which a copy is rejected. -/
def State.copyReason (s : State) (c : Copy) : Option Nat :=
  let src := rowEnds c.rowSrc c.rows c.len
  let dst := if c.gang then [] else rowEnds c.rowDst c.rows c.len
  let high (p : Word × Word) : Bool := decide (2 ^ 52 ≤ p.1.toNat ∨ 2 ^ 52 ≤ p.2.toNat)
  let meets : Bool := !dst.isEmpty &&
    decide (minOf (src.map (·.1.toNat)) ≤ maxOf (dst.map (·.2.toNat)) ∧ minOf (dst.map (·.1.toNat)) ≤ maxOf (src.map (·.2.toNat)))
  let slice (p : Word × Word) : Bool := decide (winLane ≤ p.2.toNat ∧ p.1.toNat < winLane + 2 ^ 16)
  let badGang : Bool := c.gang &&
    (match s.gangOf s.me with
      | none => true
      | some (_, l) => c.rows != 1 || c.dst != 0 || c.len % 32 != 0 || decide (128 * l < c.len) || c.gtag == 0 || decide (12 < c.gtag.toNat))
  if c.len = 0 ∨ 16777216 < c.len then some 1
  else if c.rows = 0 ∨ 65536 < c.rows then some 2
  else if c.flag.toNat % 16 ≠ 0 ∨ (c.flag ≠ 0 ∧ !s.inScratch c.env c.flag) then some 3
  else if src.any high || dst.any high then some 4
  else if meets then some 5
  else if badGang then some 6
  else if src.any slice || dst.any slice then some 9
  else none

/-- What a read of CEGO answers and does (14 R272). -/
def State.startCopy (s : State) : Word × State :=
  let c := s.shadowCopy
  match s.copyReason c with
  | some r => (BitVec.ofNat 64 (2 ^ 62 + r * 2 ^ 16), s)
  | none =>
    if 64 ≤ (s.cluster s.me.cluster).copies.length then (BitVec.ofNat 64 (2 ^ 63), s)
    else
      let s' := { s with mem := s.mem.setEmpty (s.copyHomes c c.lines) }
      (c.ident.setWidth 64, s'.withCluster s.me.cluster (fun cl => { cl with copies := cl.copies ++ [c], nextCopy := cl.nextCopy + 1 }))

/-- CEGO_READ: the read of CSR 0x208 (03 R90, 14 R272). -/
def execCegoRead (d : XReg) (s : State) : Out := finish s.startCopy.2 d s.startCopy.1

/-- A copy of a cluster by number. -/
def State.copyOf (s : State) (cl id : Nat) : Option Copy := (s.cluster cl).copies.find? (fun c => c.id == id)

/-- Change the first element of a list with a property. -/
def onFirst {α : Type} (p : α → Bool) (f : α → α) : List α → List α
  | [] => []
  | a :: r => if p a then f a :: r else a :: onFirst p f r

/-- Change or drop a copy. -/
def State.withCopy (s : State) (cl id : Nat) (f : Copy → Copy) : State :=
  s.withCluster cl (fun c => { c with copies := onFirst (fun x => x.id == id) f c.copies })

def State.dropCopy (s : State) (cl id : Nat) : State :=
  s.withCluster cl (fun c => { c with copies := c.copies.eraseP (fun x => x.id == id) })

/-- COPY_START (14 R273): in start order, at most eight at once, none while paused (04 R112). -/
def startNext (cl : Nat) (s : State) : State :=
  let c := s.cluster cl
  if c.pause ∨ 8 ≤ (c.copies.filter (·.running)).length then s
  else s.withCluster cl (fun c => { c with copies := onFirst (fun x => !x.running) (fun x => { x with running := true }) c.copies })

def execCopyStart (cl : Nat) (s : State) : Out := .next (startNext cl s)

/-- Whether a home byte is one that the copy writes, under whatever virtual address (14 R272). -/
def State.copyWrites (s : State) (c : Copy) (h : Nat) : Bool :=
  c.lines.any (fun l =>
    match s.engineXlat c.env .store (BitVec.ofNat 64 (128 * l)) with
    | .ok ⟨.near b, _, _⟩ => decide (b ≤ h ∧ h < b + 128) && (c.bytesOf l).any (fun p => p.2.2.toNat == 128 * l + (h - b))
    | _ => false)

/-- A source byte as an engine finds it. -/
inductive SrcByte where
  | byte (b : Byte) (poisoned : Bool)
  | empty
  | remote (pkg addr : Nat)
  | fault (f : EngFault)
  deriving DecidableEq, Repr

/-- Source byte of a copy (14 R273): `n` numbers it, for the free value of an aliased byte (R272). -/
def State.copySrc (s : State) (c : Copy) (n : Nat) (va : Word) : SrcByte :=
  match s.engineXlat c.env .load va with
  | .error b => .fault ⟨if b.code = cPage then cPage else cAccess, va⟩
  | .ok x =>
    match x.place with
    | .near h =>
      if s.copyWrites c h then .byte (Config.freeByte (s.fresh + n)) (s.mem.poisonAt h 1).isSome
      else if s.mem.isEmptyAt h 1 then .empty
      else .byte (s.mem.byte h) (s.mem.poisonAt h 1).isSome
    | .cap o => .byte (s.capByte o) false
    | .far pkg addr =>
      if !routeV (s.route pkg) then .fault ⟨cAccess, va⟩
      else
        match c.remote.find? (fun r => r.pkg == pkg && decide (r.addr ≤ addr ∧ addr < r.addr + r.size)) with
        | some r =>
          match r.reply with
          | .data l => .byte (l.getD (addr - r.addr) (0, false)).1 (l.getD (addr - r.addr) (0, false)).2
          | .denied => .fault ⟨cAccess, va⟩
          | _ => .remote pkg addr
        | none => .remote pkg addr

/-- Fault of a destination byte (14 R275). -/
def State.copyDstFault (s : State) (c : Copy) (va : Word) : Option EngFault :=
  match s.engineXlat c.env .store va with
  | .error b => some ⟨if b.code = cPage then cPage else cAccess, va⟩
  | .ok x =>
    match x.place with
    | .near _ => none
    | .cap _ => some ⟨cAccess, va⟩
    | .far pkg _ => if routeV (s.route pkg) then none else some ⟨cAccess, va⟩

/-- Consecutive addresses of one package as spans, none of which reaches over a 128-byte line. -/
def spans : List (Nat × Nat) → List (Nat × Nat × Nat)
  | [] => []
  | (p, a) :: r =>
    match spans r with
    | (q, b, n) :: rest => if p = q ∧ b = a + 1 ∧ b % 128 ≠ 0 then (p, a, n + 1) :: rest else (p, a, 1) :: (q, b, n) :: rest
    | [] => [(p, a, 1)]

/-- Whether a copy has asked for a byte of another package. -/
def Copy.asked (c : Copy) (w : Nat × Nat) : Bool := c.remote.any (fun r => r.pkg == w.1 && decide (r.addr ≤ w.2 ∧ w.2 < r.addr + r.size))

/-- Ask for source bytes of other packages that have not been asked for (21 R383, R384). -/
def State.askForCopy (s : State) (cl : Nat) (c : Copy) (want : List (Nat × Nat)) : State :=
  (requestsOf (spans (want.filter (fun w => !c.asked w)))).foldl (fun s r =>
    let p := s.request r.1 r.2
    p.1.withCopy cl c.id (fun x => { x with remote := x.remote ++ p.2 })) s

/-- Source bytes of a copy that lie in other packages. -/
def State.farSources (s : State) (c : Copy) (vas : List Word) : List (Nat × Nat) :=
  vas.filterMap (fun va => match s.engineXlat c.env .load va with | .ok ⟨.far pkg a, _, _⟩ => some (pkg, a) | _ => none)

/-- Whether the engine may work on bytes of a copy: while it is paused it starts no line, but ends one whose source bytes it has asked another package
for (04 R111, R112). -/
def State.mayCopy (s : State) (cl : Nat) (c : Copy) (vas : List Word) : Bool :=
  !(s.cluster cl).pause || (let far := s.farSources c vas; !far.isEmpty && far.all c.asked)

/-- Source addresses of a destination line, and of the data of a gang. -/
def Copy.sourcesOf (c : Copy) (line : Nat) : List Word := (c.bytesOf line).map (·.2.1)
def Copy.gangSources (c : Copy) : List Word := (List.range c.len).map (fun i => c.src + BitVec.ofNat 64 i)

/-- Lines of the host window that an engine reads are held (20 R354). -/
def State.holdSources (s : State) (env : Env) (vas : List Word) (unit : Nat := 0) : State :=
  vas.foldl (fun s va => match s.engineXlat env .load va unit with | .ok ⟨.near h, _, _⟩ => { s with mem := s.mem.holdHost false h } | _ => s) s

/-- Write the bytes of a line: local bytes at their homes with the poison they carry, remote bytes as one packet for each row (21
R385). -/
def State.putLine (s : State) (c : Copy) (bs : List (Nat × Word × Byte × Bool)) : State :=
  let placed := bs.filterMap (fun b =>
    match s.engineXlat c.env .store b.2.1 with
    | .ok x => some (b.1, x.place, b.2.2)
    | .error _ => none)
  let near : List (MaskedByte × Bool) := placed.filterMap (fun p =>
    match p.2.1 with | .near h => some ((⟨h, p.2.2.1, 0xFF⟩ : MaskedByte), p.2.2.2) | _ => none)
  let m := (s.mem.perform (some c.tid) none (near.map (·.1))).setPoison
    (distinct ((near.filter (·.2)).map (fun p => p.1.addr / 8)))
  let s := { s with mem := m.setFull ((near.map (fun p => p.1.addr / 128)).filter (fun l => isScratch (128 * l))) }
  let far : List (Nat × Nat × MaskedByte × Bool) := placed.filterMap (fun p =>
    match p.2.1 with | .far pkg a => some (p.1, pkg, ((⟨a, p.2.2.1, 0xFF⟩ : MaskedByte), p.2.2.2)) | _ => none)
  let ep := ((s.thread c.tid).map (·.ep)).getD 0
  ((far.map (fun p => (p.1, p.2.1))).eraseDups).foldl (fun s k =>
    let mine := (far.filter (fun p => p.1 == k.1 && p.2.1 == k.2)).map (·.2.2)
    s.sendFor c.tid k.2 (fun ch =>
      .write c.tid ep ch (mine.map (·.1)) (distinct ((mine.filter (·.2)).map (fun b => b.1.addr / 8))))) s

/-- COPY_LINE_LAND (14 R273): the bytes of one destination line are read and performed, and the line becomes full. -/
def landLine (cl id line : Nat) (s : State) : State :=
  match s.copyOf cl id with
  | none => s
  | some c =>
    if !c.running || c.gang || c.failed.isSome || !s.mayCopy cl c (c.sourcesOf line) || !c.lines.contains line || c.landed.contains line then s
    else
      let bs := c.bytesOf line
      let srcs := ((List.range bs.length).zip bs).map (fun p => s.copySrc c p.1 p.2.2.1)
      if srcs.any (fun b => match b with | .fault _ => true | .empty => true | _ => false)
          || bs.any (fun b => (s.copyDstFault c b.2.2).isSome) then s
      else
        let want := srcs.filterMap (fun b => match b with | .remote p a => some (p, a) | _ => none)
        if !want.isEmpty then s.askForCopy cl c want
        else
          let out := (bs.zip srcs).map (fun p => (p.1.1, p.1.2.2, match p.2 with | .byte b x => (b, x) | _ => (0, false)))
          let s' := (s.holdSources c.env (c.sourcesOf line)).putLine c out
          ({ s' with fresh := s'.fresh + bs.length }).withCopy cl id (fun x => { x with landed := x.landed ++ [line] })

def execCopyLineLand (cl id line : Nat) (s : State) : Out := .next (landLine cl id line s)

/-- Write completion words at FLAG, FLAG + 8 first (14 R273, R275). -/
def State.putFlag (s : State) (env : Env) (tid : Nat) (flag lo hi : Word) : State :=
  if flag = 0 then s
  else
    match s.engineXlat env .store flag with
    | .ok ⟨.near h, _, _⟩ =>
      let m := s.mem.perform (some tid) none (wholeBytes (h + 8) (leBytes 8 hi.toNat))
      { s with mem := m.perform (some tid) none (wholeBytes h (leBytes 8 lo.toNat)) }
    | _ => s

/-- Completion words of one context are written in start order (14 R273): an earlier copy of the thread still owes its words. -/
def State.flagTurn (s : State) (cl : Nat) (c : Copy) : Bool :=
  c.flag == 0 || !((s.cluster cl).copies.takeWhile (fun x => x.id != c.id)).any (fun x => x.tid == c.tid && x.flag != 0)

/-- COPY_COMPLETE (14 R273). -/
def completeCopy (cl id : Nat) (s : State) : State :=
  match s.copyOf cl id with
  | none => s
  | some c =>
    let all : Bool := if c.gang then c.members.isEmpty && c.data.isSome else c.lines.all (fun l => c.landed.contains l)
    if c.running && all && c.failed.isNone && s.flagTurn cl c then (s.putFlag c.env c.tid c.flag c.fval 0).dropCopy cl id else s

def execCopyComplete (cl id : Nat) (s : State) : Out := .next (completeCopy cl id s)

/-- The entry that armed group g of a register (09 R224): broadcast, or placed again after a park in which the data came, and not complete. -/
def Thread.armed (t : Thread) (replayed : Bool) (r : VReg) (g : Nat) : Option (Nat × Entry) :=
  ((List.range t.win.length).zip t.win).find? (fun p =>
    (match p.2.op with | .vgamWr d _ => d == r | _ => false) && (replayed || p.2.queued) && !p.2.map0.getLsbD g)

/-- Whether no instruction before the one that armed it still reads or writes an armed group (04 R95): a delivery waits until then. -/
def State.gangReady (s : State) (replayed : Bool) (c : Copy) (n : Nat) : Bool :=
  (List.range n).all (fun g =>
    match s.me.armed replayed c.greg g with
    | none => true
    | some (k, e) =>
      let w := e.work k false e.op
      (s.me.olderThan k).all (fun p => (p.2.works p.1).all (fun o => !s.me.follows p.2 o w g)))

/-- Deliver groups to the thread in focus (14 R276): those that are armed are written, with the poison they carry; the others are
discarded. -/
def State.deliverGang (s : State) (replayed : Bool) (c : Copy) (data : List (Byte × Bool)) : State :=
  ((List.range (data.length / 32)).foldl (fun s g =>
    match s.me.armed replayed c.greg g with
    | none => s
    | some (k, e) =>
      let bs := (data.drop (32 * g)).take 32
      let t := s.me.vwrite c.greg 64 g ((List.range 4).map (fun n => (4 * g + n, leNat (((bs.drop (8 * n)).take 8).map (·.1)))))
      let f := t.vreg c.greg.toNat
      let bad := (List.range 4).foldl (fun m n =>
        if ((bs.drop (8 * n)).take 8).any (·.2) then m ||| BitVec.twoPow 128 (4 * g + n) else m) 0
      let t := t.setVreg c.greg.toNat { f with tag := c.gtag, poison := f.poison ||| bad }
      { s with me := t }.markGroups k (e.work k false e.op) [g]) s).retire

/-- Source bytes of a gang copy, where all can be read. -/
def State.gangBytes (s : State) (c : Copy) : Option (List (Byte × Bool)) :=
  ((List.range c.len).zip c.gangSources).foldr (fun p acc =>
    match acc, s.copySrc c p.1 p.2 with
    | some l, .byte b x => some ((b, x) :: l)
    | _, _ => none) (some [])

/-- Members of a gang that are parked when the data have come: theirs are delivered when they are placed (14 R276). -/
def State.parkedOf (s : State) (c : Copy) : List Nat :=
  c.members.filter (fun n => (s.thread n).any (fun t => t.status == .parked))

/-- GANG_DELIVERY (14 R276): the data are fetched once; a member that runs or waits gets them now, or as soon as no earlier instruction of its window
uses an armed group; a parked one when it is placed; one that retired or left gets nothing. -/
def gangTo (cl id tid : Nat) (s : State) : State :=
  match s.copyOf cl id with
  | none => s
  | some c =>
    if !c.running || !c.gang || (c.data.isNone && !s.mayCopy cl c c.gangSources) || !c.members.contains tid then s
    else
      match c.data.or (s.gangBytes c) with
      | none =>
        s.askForCopy cl c (((List.range c.len).zip c.gangSources).filterMap (fun p =>
          match s.copySrc c p.1 p.2 with | .remote p a => some (p, a) | _ => none))
      | some data =>
        let s := if c.data.isSome then s else s.holdSources c.env c.gangSources
        let c := if c.data.isSome then c else { c with data := some data, parked := s.parkedOf c }
        let s := s.withCopy cl id (fun _ => c)
        let served := s.withCopy cl id (fun x => { x with members := x.members.erase tid })
        match s.thread tid with
        | none => served
        | some t =>
          if t.status = .retired ∨ t.crew ≠ c.crew then served
          else if t.status = .running ∨ t.status = .waiting then
            if ({ s with me := t } : State).gangReady (c.parked.contains tid) c (data.length / 32) then
              served.withFocus tid (fun s => s.deliverGang (c.parked.contains tid) c data)
            else s
          else s

/-- Whether gang data that came while a thread was parked wait for it: it issues nothing before they are delivered (14 R276). -/
def State.gangDue (s : State) (t : Thread) : Bool :=
  (s.cluster t.cluster).copies.any (fun c => c.gang && c.running && c.parked.contains t.tid && c.members.contains t.tid && c.crew == t.crew)

def execGangDelivery (cl id tid : Nat) (s : State) : Out := .next (gangTo cl id tid s)

/-- The first byte at which a running copy stops (14 R275): rows in order, source before destination; or a source that does not reply
within FTO. A paused engine finds none in lines that it does not start. -/
def State.copyFault (s : State) (cl : Nat) (c : Copy) : Option EngFault :=
  let bytes : List (Word × Option Word) :=
    if c.gang then (if c.data.isSome || !s.mayCopy cl c c.gangSources then [] else c.gangSources.map (fun a => (a, none)))
    else (c.lines.filter (fun l => !c.landed.contains l && s.mayCopy cl c (c.sourcesOf l))).flatMap (fun l =>
      (c.bytesOf l).map (fun b => (b.2.1, some b.2.2)))
  bytes.findSome? (fun p =>
    match s.copySrc c 0 p.1 with
    | .fault f => some f
    | .remote pkg addr =>
      if c.remote.any (fun r => r.pkg == pkg && decide (r.addr ≤ addr ∧ addr < r.addr + r.size) && r.reply == .none && decide (r.sent + c.fto ≤ s.time))
      then some ⟨cPeerLost, p.1⟩
      else p.2.bind (s.copyDstFault c)
    | _ => p.2.bind (s.copyDstFault c))

/-- A copy stops (14 R275): unfilled lines become full and their unwritten words poisoned, which records no writer of a line (12 R262; log 24); the armed
groups of a gang get poisoned words as their delivery; the launch counts the fault. -/
def State.stopCopy (s : State) (cl : Nat) (c : Copy) (f : EngFault) : State :=
  let left := c.lines.filter (fun l => !c.landed.contains l)
  let homes := left.flatMap (fun l => (c.bytesOf l).filterMap (fun b =>
    match s.engineXlat c.env .store b.2.2 with
    | .ok ⟨.near h, _, _⟩ => if isScratch h then some h else none
    | _ => none))
  let s := { s with mem := (s.mem.setPoison (distinct (homes.map (· / 8)))).setFull (distinct (homes.map (· / 128))) }
  (s.withCopy cl c.id (fun x =>
      { x with failed := some f.word, data := if x.gang then some (List.replicate x.len (0, true)) else none,
               parked := if x.gang then s.parkedOf x else [] })).withLaunch c.lid (f.inLaunch 1 c.tid)

/-- A copy that has stopped ends (14 R273, R275): every member of a gang has been served, and its completion words are in turn. -/
def State.endFailed (s : State) (cl id : Nat) : State :=
  match s.copyOf cl id with
  | none => s
  | some c =>
    match c.failed with
    | none => s
    | some w => if (!c.gang || c.members.isEmpty) && s.flagTurn cl c then (s.putFlag c.env c.tid c.flag (~~~c.fval) w).dropCopy cl id else s

/-- COPY_FAULT (14 R275): a running copy stops at its first fault; one that has stopped writes its fault word. -/
def faultCopy (cl id : Nat) (s : State) : State :=
  match s.copyOf cl id with
  | none => s
  | some c =>
    let s := if c.running && c.failed.isNone then
        (match s.copyFault cl c with
          | some f => s.stopCopy cl c f
          | none => s)
      else s
    s.endFailed cl id

def execCopyFault (cl id : Nat) (s : State) : Out := .next (faultCopy cl id s)

end Sys2Proof.Machine
end

