-- ==== Sys2Proof/Machine/Keeper.lean ====
section
/-!
DEFINITION. The keeper of a cluster: ready queues, grants, parking, placement, slices, aging, gangs (01 R23 to R28, 04 R109, R110,
06 R115, 13 R262, 15 R285, R300 to R304).
-/
namespace Sys2Proof.Machine

/-- Whether a thread stands in a ready queue (15 R300): ready, or parked with no wait pending. -/
def Thread.queued (t : Thread) : Bool :=
  t.status == .ready || (t.status == .parked && (match t.wait with | some w => w.done.isSome | none => true))

/-- Whether a thread is a member of a gang (15 R285). -/
def State.isGang (s : State) (t : Thread) : Bool := (s.gangOf t).isSome

/-- A thread and, where it is in a gang, every member that has not retired. -/
def State.groupOf (s : State) (t : Thread) : List Thread :=
  if s.isGang t then s.threads.filter (fun o => o.crew == t.crew && o.status != .retired) else [t]

/-- The matrix queue of a core (10 R230). -/
def State.matrixQueue (s : State) (core : Nat) : List Nat := ((s.cores.find? (fun c => c.core == core)).map (·.mq)).getD []

/-- Change the record of a core, which is made where it does not exist. -/
def State.withCore (s : State) (core : Nat) (f : CoreRec → CoreRec) : State :=
  if s.cores.any (fun c => c.core == core) then { s with cores := s.cores.map (fun c => if c.core == core then f c else c) }
  else { s with cores := s.cores ++ [f ⟨core, false, 0, false, 0, false, [], false, []⟩] }

/-- Scopes in order (11 R251). -/
def Scope.rank : Scope → Nat
  | .lg => 0 | .co => 1 | .dl => 2 | .ch => 3 | .rt => 4 | .pk => 5 | .pd => 6

/-- Whether a rendezvous of the window, of which a lane has delivered, has popped a position of a stream (06 R128). -/
def Thread.popped (t : Thread) (n p : Nat) : Bool :=
  ((List.range t.win.length).zip t.win).any (fun q =>
    q.2.delivered != 0 && (q.2.works q.1).any (fun w =>
      (t.popsOf w.op).contains n && (List.range w.vl).any (fun i => t.elemPos w n i == some p)))

/-- The elements read ahead that a fence leaves: those that have been popped (09 R209). -/
def Thread.dropAhead (t : Thread) : Thread :=
  { t with streams := Vector.ofFn (fun n => { t.streams[n] with ahead := t.streams[n].ahead.filter (fun a => t.popped n.val a.1) }) }

/-- The successor side of a fence (11 R257). -/
def State.fenceAfter (s : State) (sc : Scope) (succ : BitVec 7) : State :=
  let s := if 2 ≤ Scope.rank sc ∧ (succ.getLsbD 0 ∨ succ.getLsbD 1) then { s with mem := s.mem.dropL1 s.me.core } else s
  if succ.getLsbD 1 then { s with me := s.me.dropAhead } else s

/-- The scope of the buoy a wait names, whose fence part follows status 0 (15 R299). -/
def Wait.after (w : Wait) (s : State) : State :=
  match w.kind with
  | .buoy => s.fenceAfter (if w.target < clusterSram 0 then .co else if w.target < chipSram 0 then .dl else .ch) 7
  | _ => s

/-- A register whose value comes from a load performed now, which addresses made from it follow (11 R249). -/
def Thread.loadedNow (t : Thread) (r : XReg) (time : Nat) : Thread :=
  { t with dep := t.dep.set r.toNat (if r = 0 then 0 else time + 1) (by have := r.isLt; omega) }

/-- What the end of a wait with a status does (01 R25, 14 R269, 15 R299): the core's copy of the line it tested goes (03 R74), the fence part of
a buoy follows status 0, the status is written, issue goes on. What depends on the status of a test follows that test (11 R249). -/
def State.finishWait (s : State) (w : Wait) (status : Word) : State :=
  let s := { s with
    me := (if w.kind == .copy then { s.me with wait := none } else { s.me with wait := none }.loadedNow w.dest s.time)
    mem := if w.kind == .copy then s.mem else s.mem.dropOwn s.me.core w.target }
  ((if status = 0 then w.after s else s).setX w.dest status).bump

/-- The thread in focus leaves its wait with a status (01 R24, R25). -/
def State.endWait (s : State) (w : Wait) (status : Word) : State :=
  ({ s with me := { s.me with status := .running } }).finishWait w status

/-- A number read at a home as a wait tests it: words of the capability table are those it shows (20 R361). -/
def State.waitNumber (s : State) (h n : Nat) : Nat :=
  if s.capBase ≤ h ∧ h < s.capBase + 2 ^ 20 then leNat (s.capBytes (h - s.capBase) n) else s.mem.number h n

/-- Where a thread waits on memory: the home of the word, in a scratchpad window, local translated memory or host memory (14 R269). -/
def State.waitHome (s : State) (ea : Word) (size : Nat) : Except Bad Nat :=
  match s.checkAccess .load ea size with
  | .error b => .error b
  | .ok x =>
    match x.place with
    | .near h => .ok h
    | .far _ _ => .error ⟨cAccess, detailOf .load true⟩
    | .cap o => if ea.toNat < windowRegion then .ok (s.capBase + o) else .error ⟨cAccess, detailOf .load false⟩

/-- The window of a buoy, with its scope (15 R296); misalignment first; every address outside the scratchpad windows, mapped or not, is the
access fault. -/
def State.buoyHome (s : State) (acc : Acc) (ea : Word) : Except Bad (Nat × Scope) :=
  let refused : Bad := ⟨cAccess, detailOf acc (s.peekRemote s.env ea)⟩
  if ea.toNat % 16 ≠ 0 then .error ⟨cMisaligned, detailOf acc (s.peekRemote s.env ea)⟩
  else if ea.toNat < windowRegion then .error refused
  else
    match s.translate s.env acc none ea with
    | .ok ⟨.near h, _, _⟩ =>
      if isScratch h then .ok (h, if h < clusterSram 0 then .co else if h < chipSram 0 then .dl else .ch) else .error refused
    | _ => .error refused

/-- The home that a wait of a thread tests, translated again at every test (14 R269, 18 R320), or the trap it takes: a failed check, a poisoned
word (03 R72). -/
def State.waitAt (s : State) (w : Wait) (t : Thread) : Except (BitVec 8 × BitVec 12 × Word) Nat :=
  let f : State := { s with me := t }
  let size := if w.kind == .half then 4 else 8
  match w.kind, (if w.kind == .buoy then (f.buoyHome .load w.ea).map (·.1) else f.waitHome w.ea size) with
  | .copy, _ => .ok w.target
  | _, .error b => .error (b.code, b.detail, w.ea)
  | _, .ok h => if (s.mem.poisonAt h size).isSome then .error (cPoison, 0, w.ea &&& ~~~7) else .ok h

/-- A wait that was found unreadable while its thread could not issue takes its trap (01 R25). -/
def State.trapWait (s : State) (w : Wait) : State :=
  match s.waitAt w s.me with
  | .error b => s.trapA b.1 b.2.1 b.2.2
  | .ok _ => s.trapA cPoison 0 (w.ea &&& ~~~7)

/-- A wait that ended while its thread was parked or halted completes now (01 R25, 04 R112). -/
def State.resumeWait (s : State) : State :=
  match s.me.wait with
  | some w =>
    match w.done with
    | some 2 => ({ s with me := { s.me with status := .running } }).trapWait w
    | some st => s.endWait w st
    | none => s
  | none => s

/-- Numbers of the cores of a cluster. -/
def clusterCores (cl : Nat) : List Nat := (List.range 16).map (fun i => 16 * cl + i)

/-- A core that is neither fenced nor halted (15 R301). -/
def State.coreOpen (s : State) (core : Nat) : Bool := s.coreLanes core != 0 && !s.halted core

/-- The lowest context of a core that is free. Log 13. -/
def State.freeCtx (s : State) (core : Nat) : Option Nat :=
  (List.range 4).find? (fun c => (s.holders core).all (fun t => t.ctx != c))

/-- Lane sets of count L that a core offers (06 R115), lowest first. -/
def State.offers (s : State) (core l : Nat) : List (BitVec 8) :=
  let ok := s.coreLanes core
  let sets : List (BitVec 8) :=
    if l = 8 then [0xFF]
    else if l = 7 then (if (bitsOf ok).length = 7 then [ok] else [])
    else if l = 4 then [0x0F, 0xF0]
    else if l = 2 then [0x03, 0x0C, 0x30, 0xC0]
    else if l = 1 then (List.range 8).map (fun i => BitVec.twoPow 8 i)
    else []
  sets.filter (fun m => m &&& ~~~ok == 0)

/-- The largest lane count not above a request that a core offers (15 R301); 0 where it offers none. -/
def State.grantOn (s : State) (core req : Nat) : Nat :=
  (([8, 7, 4, 2, 1] : List Nat).find? (fun l => decide (l ≤ req) && !(s.offers core l).isEmpty)).getD 0

/-- The count a thread gets on a core (15 R285, R301): a member of a gang its gang's. -/
def State.grantFor (s : State) (t : Thread) (core : Nat) : Nat :=
  if s.isGang t then (if (s.offers core t.gangL).isEmpty then 0 else t.gangL) else s.grantOn core t.grantReq

/-- Whether the saved state of a thread fits a grant (04 R108, R110). -/
def Thread.fits (t : Thread) (l : Nat) : Bool :=
  t.v.toList.all (fun f => !f.dirty || decide (f.wx ≤ 4 * l)) && t.win.all (fun e => decide (e.vl ≤ e.vtype.vlmax l))

/-- The lane set of a count: shared with the fewest occupied contexts, the lowest on a tie (15 R301). -/
def State.laneSet (s : State) (core l : Nat) : BitVec 8 :=
  let shared (m : BitVec 8) : Nat := ((s.holders core).filter (fun t => t.lmask &&& m != 0)).length
  match s.offers core l with
  | [] => 0
  | m :: r => r.foldl (fun best x => if shared x < shared best then x else best) m

/-- Order in the queues: level, time the level was reached, thread number (01 R28, 15 R300, R304). -/
def aheadOf (a b : Thread) : Bool :=
  decide (a.level < b.level ∨ (a.level = b.level ∧ (a.levelSince < b.levelSince ∨ (a.levelSince = b.levelSince ∧ a.tid < b.tid))))

def queueInsert (t : Thread) : List Thread → List Thread
  | [] => [t]
  | o :: r => if aheadOf t o then t :: o :: r else o :: queueInsert t r

/-- The queues of a cluster, head first. A gang stands in them only while every member that has not retired does (15 R285). -/
def State.queue (s : State) (cl : Nat) : List Thread :=
  ((s.threads.filter (fun t => t.cluster == cl && t.queued && (s.groupOf t).all Thread.queued)).foldr queueInsert [])

/-- PARKING (04 R109): the window is formed, the row at which a tile instruction stopped stands in VSTART, reads ahead and remote loads under way are
given up; a fence that waits will start again (11 R258); the trap registers keep their values; the thread enters its queue at its level. -/
def Thread.park (t : Thread) (now : Nat) : Thread :=
  { t with
    status := .parked
    win := if t.held then t.win else t.win.map Entry.discard
    vstart := match t.held, t.win.head?.bind Entry.rowStop with
      | false, some n => BitVec.ofNat 64 n
      | _, _ => t.vstart
    remote := []
    ask := match t.ask with | .sweeping _ _ _ => .none | a => a
    exiting := none
    due := .none
    cbk := none
    streams := t.streams.map (fun st => { st with ahead := [] })
    lastCore := some t.core
    levelSince := now }

/-- Park one thread: a held fault enters first (04 R109). What it has released is performed (06 R134), and its matrix instruction leaves the
engine. -/
def State.parkOne (s : State) (tid : Nat) : State :=
  s.withFocus tid (fun s =>
    let s := match s.me.fault with
      | some f => s.enterTrap f
      | none => s
    if s.me.holds then
      let s := s.performReleased.leaveEngine tid
      { s with me := s.me.park s.time }
    else s)

/-- The members of a thread's group that hold a context. -/
def State.heldGroup (s : State) (t : Thread) : List Thread := (s.groupOf t).filter Thread.holds

/-- Whether no member of a thread's group stands on a halted core, from which the keeper parks nothing (04 R112). -/
def State.noneHalted (s : State) (t : Thread) : Bool := (s.heldGroup t).all (fun o => !s.halted o.core)

/-- Whether a thread and its gang can be parked now: not from a halted core, nor between the slots of a pair word (02 R46). -/
def State.canPark (s : State) (t : Thread) : Bool := s.noneHalted t && (s.heldGroup t).all (fun o => !o.between)

/-- Park a thread, with its whole gang (15 R285, R302). Where that cannot be now, each stops at its next word and is parked as soon as it can. -/
def State.parkGroup (s : State) (tid : Nat) : State :=
  match s.thread tid with
  | none => s
  | some t =>
    let group := s.heldGroup t
    if s.canPark t then group.foldl (fun s o => s.parkOne o.tid) s
    else s.mapThreads (fun o => if group.any (fun g => g.tid == o.tid) && o.due == .none then { o with due := .park } else o)

/-- The holder to be parked first: lowest level, then the one placed most recently (15 R302). -/
def victim : List Thread → Option Thread
  | [] => none
  | t :: r =>
    match victim r with
    | none => some t
    | some o => if t.level < o.level ∨ (t.level = o.level ∧ t.placedAt < o.placedAt) then some o else some t

/-- The level of the gang that a set of cores is kept for (15 R303): that of its first member in the queues. -/
def State.gangLevel (s : State) (cl : Nat) (g : GangSet) : Option Nat :=
  ((s.queue cl).find? (fun t => t.lid == g.lid && s.isGang t)).map (·.level)

/-- Cores that are kept for gangs from threads of a level, but those kept for launch `own` (15 R303). -/
def State.keptCores (s : State) (cl level : Nat) (own : Option Nat) : List Nat :=
  ((s.cluster cl).gangSets.filter (fun g => some g.lid != own &&
    (match s.gangLevel cl g with | some l => decide (l ≤ level) | none => false))).flatMap (·.cores)

/-- Launches a thread of which has been placed on a core. -/
def State.seenOn (s : State) (core : Nat) : List Nat :=
  match s.cores.find? (fun c => c.core == core) with
  | some c => c.seen
  | none => []

/-- What the placement of a thread does to a core's caches: a core that the thread was not parked from holds no line that is older than what
the thread has seen or written (15 R292 at its first placement; 11 R243 at the others, log 8); the instruction cache where it is the first
of its launch there (05 R113, 06 R139). -/
def State.freshCaches (s : State) (t : Thread) (core : Nat) : State :=
  let s := if t.lastCore == some core then s else { s with mem := s.mem.dropL1 core }
  if (s.seenOn core).contains t.lid then s
  else
    let s := s.withCore core (fun c => { c with seen := c.seen ++ [t.lid] })
    { s with mem := { s.mem with icache := s.mem.icache.filter (fun l => l.core != core) } }

/-- Gang data that came while a member was parked are delivered now (14 R276), where no earlier instruction of its window uses the armed
groups; else as soon as none does, and before it issues (`State.gangDue`). -/
def State.heldGangs (s : State) : State :=
  ((s.cluster s.me.cluster).copies).foldl (fun s c =>
    match c.data with
    | some data =>
      if c.gang && c.running && c.members.contains s.me.tid && c.crew == s.me.crew then
        if s.gangReady true c (data.length / 32) then
          (s.withCopy s.me.cluster c.id (fun x => { x with members := x.members.erase s.me.tid })).deliverGang true c data
        else s.withCopy s.me.cluster c.id (fun x => { x with parked := s.me.tid :: x.parked })
      else s
    | none => s) s

/-- The fields of a thread that its placement writes (15 R300, R301): PLACE, the grant, its level; lines to be carried (13 R262), from the core of the
first park where it was parked again before they were (log 20). The oldest entry of a window that replays takes VSTART (04 R96). -/
def Thread.placed (t : Thread) (core ctx : Nat) (lanes : BitVec 8) (now : Nat) : Thread :=
  let from_ := t.carry.or t.lastCore
  { t with
    status := .running
    core := core
    ctx := ctx
    lmask := lanes
    level := t.wantLevel.getD t.launchLevel
    levelSince := now
    placedAt := now
    passed := 0
    wasPlaced := true
    lastCore := none
    carry := if from_ = some core then none else from_
    win := match t.held, t.win with
      | false, e :: r =>
        ({ e with vstart := if t.vstart = 0 then e.vstart else t.vstart.toNat } :: r).map (fun o => { o with replay := true })
      | _, w => w
    vstart := if t.held || t.win.isEmpty then t.vstart else 0 }

/-- The bounds of the rows of open fibres are read again, as vrest reads them (04 R110, 09 R215); bounds that cannot be read now stay (log 20). -/
def State.rereadRows (s : State) : State :=
  (List.range 4).foldl (fun s n =>
    if (s.me.stream n).fib then
      (match s.restoreStream s.me.savedStream n with
        | .ok st => { s with me := s.me.setStream n st }
        | .error _ => s)
    else s) s

/-- The thread in focus is placed (04 R110, 15 R292, R300, R301): fibres read their rows, once its lines have been carried over (13 R262), held gang data
are delivered, a wait that has ended completes, the window replays. Where the header or an entry of its saved image is poisoned its launch ends as on an unhandled trap (19 R344). -/
def State.placeMe (s : State) (core ctx : Nat) (lanes : BitVec 8) : State :=
  let s := s.freshCaches s.me core
  let s := s.withLaunch s.me.lid (fun l =>
    { l with
      started := if s.me.wasPlaced then l.started else l.started + 1
      tstart := l.tstart.or (some s.time) })
  let s := { s with me := s.me.placed core ctx lanes s.time }
  if s.me.imgBad then (s.withLaunch s.me.lid (fun l => l.addFault cPoison 0 s.me.tid 0)).endLaunch s.me.lid 1
  else (if s.me.carry.isSome then s else s.rereadRows).heldGangs.resumeWait

/-- Place a thread that is queued on a core with a free context. -/
def State.placeOn (s : State) (tid core : Nat) : State :=
  s.withFocus tid (fun s =>
    match s.freeCtx core with
    | none => s
    | some ctx => if s.me.queued then s.placeMe core ctx (s.laneSet core (s.grantFor s.me core)) else s)

/-- The core with the least value of f, the first on a tie. -/
def leastBy (f : Nat → Nat) : List Nat → Option Nat
  | [] => none
  | a :: r =>
    match leastBy f r with
    | none => some a
    | some b => if f b < f a then some b else some a

/-- The core a thread goes to, of those in a list (15 R301): the hafn core, the core it was parked from, the fewest occupied contexts,
the lowest number. -/
def State.pickCore (s : State) (t : Thread) (cores : List Nat) : Option Nat :=
  match cores.find? (fun c => t.hafn == some (c % 16)) with
  | some c => some c
  | none =>
    match cores.find? (fun c => t.lastCore == some c) with
    | some c => some c
    | none => leastBy (fun c => (s.holders c).length) cores

/-- The cores a gang needs (15 R303): the set that is fixed, unless one of its cores no longer serves; else fewest occupied contexts,
lowest number first, off the cores kept for other gangs. -/
def State.gangCores (s : State) (cl : Nat) (t : Thread) (n : Nat) : List Nat :=
  let kept := s.keptCores cl t.level (some t.lid)
  let serves (c : Nat) : Bool := s.coreOpen c && !(s.offers c t.gangL).isEmpty
  let fresh := ([0, 1, 2, 3, 4] : List Nat).flatMap (fun k =>
    (clusterCores cl).filter (fun c => serves c && !kept.contains c && (s.holders c).length == k))
  match (s.cluster cl).gangSets.find? (fun g => g.lid == t.lid) with
  | some g => if g.cores.all serves then g.cores else fresh.take n
  | none => fresh.take n

/-- Keep a set of cores for a gang; the time it has waited stays while the set does. -/
def State.keepSet (s : State) (cl lid : Nat) (set : List Nat) : State :=
  s.withCluster cl (fun c =>
    if c.gangSets.any (fun g => g.lid == lid && g.cores == set) then c
    else { c with gangSets := c.gangSets.filter (fun g => g.lid != lid) ++ [⟨lid, set, s.time⟩] })

/-- Place the first thread or gang of a queue that can be placed. `passed` are the crews of gangs passed over; `first` says that nothing has
been: a gang that then comes heads the highest level, and its set is fixed (15 R303). -/
def State.placeFrom (s : State) (cl : Nat) (passed : List (BitVec 16)) (first : Bool) : List Thread → State
  | [] => s
  | t :: r =>
    if s.isGang t then
      let members := (s.queue cl).filter (fun o => o.crew == t.crew)
      let set := s.gangCores cl t members.length
      if passed.contains t.crew || set.length < members.length then s.placeFrom cl (t.crew :: passed) false r
      else if (set.take members.length).all (fun c => (s.freeCtx c).isSome) then
        (members.zip set).foldl (fun s p => s.placeOn p.1.tid p.2)
          (s.withCluster cl (fun c => { c with gangSets := c.gangSets.filter (fun g => g.lid != t.lid) }))
      else if first then (s.keepSet cl t.lid set).placeFrom cl [t.crew] false r
      else s.placeFrom cl (t.crew :: passed) false r
    else
      let kept := s.keptCores cl t.level none
      let cores := (clusterCores cl).filter (fun c =>
        s.coreOpen c && (s.freeCtx c).isSome && !kept.contains c && s.grantFor t c != 0 && t.fits (s.grantFor t c))
      match s.pickCore t cores with
      | some c => s.placeOn t.tid c
      | none => s.placeFrom cl passed false r

/-- Sets that no gang waits for are given up. -/
def State.dropGangSets (s : State) (cl : Nat) : State :=
  s.withCluster cl (fun c => { c with gangSets := c.gangSets.filter (fun g => (s.gangLevel cl g).isSome) })

/-- PLACE_THREAD (15 R301, R303): one placement decision of a keeper; none while the package is quiesced (20 R357). -/
def placeOne (cl : Nat) (s : State) : State :=
  if s.host.quiesced then s
  else
    let s := s.dropGangSets cl
    s.placeFrom cl [] true (s.queue cl)

/-- Placement decisions of a keeper, one after another, until none places a thread. -/
def placeAll (cl : Nat) : Nat → State → State
  | 0, s => s
  | n + 1, s =>
    let s' := placeOne cl s
    if (s'.queue cl).length = (s.queue cl).length then s' else placeAll cl n s'

/-- Whether a thread that has entered a queue is not placed by the decisions that come before parking (15 R304), and finds no context
free then, but contexts that are held for a gang (15 R302, R303). -/
def State.noContext (s : State) (t : Thread) : Bool :=
  let p := placeAll t.cluster (s.queue t.cluster).length s
  let kept := p.keptCores t.cluster t.level none
  p.threads.any (fun o => o.tid == t.tid && o.queued)
    && !(clusterCores t.cluster).any (fun c => p.coreOpen c && (p.freeCtx c).isSome && !kept.contains c)

/-- A thread has entered a queue (15 R302): with no context free, a holder of a lower level is parked at once. -/
def State.arrival (s : State) (tid : Nat) : State :=
  match s.thread tid with
  | none => s
  | some t =>
    if t.queued && s.noContext t then
      match victim (s.threads.filter (fun o => o.holds && o.cluster == t.cluster && o.due == .none && s.noneHalted o && decide (t.level < o.level))) with
      | none => s
      | some v => s.parkGroup v.tid
    else s

/-- Park a thread with its gang; each that was parked enters its queue (15 R302). -/
def State.parkEnter (s : State) (tid : Nat) : State :=
  match s.thread tid with
  | none => s
  | some t => ((s.heldGroup t).map (·.tid)).foldl State.arrival (s.parkGroup tid)

def execPlaceThread (cl : Nat) (s : State) : Out := .next (placeOne cl s)

/-- Whether a created thread is the next of its launch that its cluster admits: threads are admitted in index order (15 R291). -/
def State.nextAdmitted (s : State) (t : Thread) : Bool :=
  t.status == .created && s.threads.all (fun o => !(o.status == .created && o.lid == t.lid && o.cluster == t.cluster) || decide (t.idx ≤ o.idx))

/-- ADMIT (01 R24, 15 R291). -/
def takeOn (tid : Nat) (s : State) : State :=
  match s.thread tid with
  | some t =>
    if s.nextAdmitted t then
      (s.withThread tid (fun t => { t with status := .ready, levelSince := s.time })).arrival tid
    else s
  | none => s

def execAdmitThread (tid : Nat) (s : State) : Out := .next (takeOn tid s)

/-- Whether a thread of a level is queued for a cluster, other than the threads of a group. -/
def State.rival (s : State) (t : Thread) : Bool :=
  (s.queue t.cluster).any (fun o => decide (o.level ≤ t.level) && o.tid != t.tid)

/-- SLICE_END (15 R302). -/
def endSlice (tid : Nat) (s : State) : State :=
  match s.thread tid with
  | some t =>
    if t.holds && s.rival t && s.noneHalted t && t.due == .none then
      (s.tick (t.placedAt + (s.cluster t.cluster).slice)).parkEnter tid
    else s
  | none => s

def execSliceEnd (tid : Nat) (s : State) : Out := .next (endSlice tid s)

/-- GANG_WAIT_SLICE_EXPIRY (15 R303): holders at the gang's level or lower are parked, lowest first, until each core of the set has a
free context. -/
def gangParks (level : Nat) (cores : List Nat) : Nat → State → State
  | 0, s => s
  | n + 1, s =>
    let full := cores.filter (fun c => (s.freeCtx c).isNone && !s.halted c && (s.holders c).all (fun t => t.due == .none))
    match victim (s.threads.filter (fun t => t.holds && full.contains t.core && s.noneHalted t && decide (level ≤ t.level))) with
    | none => s
    | some v => gangParks level cores n (s.parkEnter v.tid)

def gangWait (cl : Nat) (s : State) : State :=
  let slice := (s.cluster cl).slice
  match (s.cluster cl).gangSets with
  | [] => s
  | g :: r =>
    let s := s.tick (r.foldl (fun m o => min m o.since) g.since + slice)
    (g :: r).foldl (fun s o =>
      match s.gangLevel cl o with
      | some l => if o.since + slice ≤ s.time then gangParks l o.cores 64 s else s
      | none => s) s

def execGangWaitSliceExpiry (cl : Nat) (s : State) : Out := .next (gangWait cl s)

/-- AGING_INTERVAL (01 R28, 15 R300). -/
def age (tid : Nat) (s : State) : State :=
  match s.thread tid with
  | some t =>
    if t.queued && t.level != 0 then
      let due := t.levelSince + (s.cluster t.cluster).aging
      (s.tick due).withThread tid (fun t => { t with level := t.level - 1, levelSince := due })
    else s
  | none => s

def execAgingInterval (tid : Nat) (s : State) : Out := .next (age tid s)

/-- Copy a scratchpad line to another place: bytes, poison, full/empty bit, last writer (13 R262). -/
def Mem.carryLine (m : Mem) (who src dst : Nat) : Mem :=
  let bad := (List.range 16).filter (fun i => m.poison.contains (16 * src + i))
  let m' := (m.perform (some who) none (wholeBytes (128 * dst) (m.bytesAt (128 * src) 128))).setPoison (bad.map (fun i => 16 * dst + i))
  if m.empties.contains src then m'.setEmpty [dst] else m'.setFull [dst]

/-- SCRATCHPAD_CARRY (13 R262): once the thread's copies and Welt operations have ended (what it had released was performed when it was
parked), where the copy engine is not paused (04 R111). Then the rows of its fibres are read. -/
def carryLines (tid : Nat) (s : State) : State :=
  match s.thread tid with
  | none => s
  | some t =>
    match t.carry with
    | none => s
    | some c =>
      let cl := s.cluster t.cluster
      if !t.holds || cl.pause || cl.copies.any (fun x => x.tid == tid) || cl.welts.any (fun w => w.tid == tid) then s
      else
        let base := coreSram c / 128
        let lines := (s.mem.owners.filter (fun p => p.2 == tid && decide (base ≤ p.1 ∧ p.1 < base + 2 ^ 13))).map (·.1)
        let m := lines.foldl (fun m l => m.carryLine tid l (l - base + coreSram t.core / 128)) s.mem
        ({ s with mem := m }).withFocus tid (fun s => ({ s with me := { s.me with carry := none } } : State).rereadRows)

def execScratchpadCarry (tid : Nat) (s : State) : Out := .next (carryLines tid s)

end Sys2Proof.Machine
end

