-- ==== Sys2Proof/Machine/Sync.lean ====
section
/-!
DEFINITION. Fences (11 R256 to R258, 21 R393), waits (14 R268 to R270, 01 R25), lnempty (14 R267) and buoys (15 R296 to R299, 16 R305).
-/
namespace Sys2Proof.Machine

/-- A window that is live: not held, not empty. -/
def Thread.live (t : Thread) : Bool := !t.held && !t.win.isEmpty

/-- Entries of a window that replays or runs; a held one stands for nothing that a handler's fence waits for (04 R104). -/
def Thread.openEntries (t : Thread) : List (Nat × Entry) := if t.held then [] else (List.range t.win.length).zip t.win

/-- Whether an address of entry k is not known yet: an older entry has still to write a register that the entry reads, or to move a stream that it
names (04 R95). -/
def State.unsure (s : State) (k : Nat) (e : Entry) : Bool :=
  (s.me.olderThan k).any (fun o => s.streamClash o.2 e || (o.2.works o.1).any (fun ow =>
    (e.works k).any (fun w => clash ((w.groups s.me).flatMap (w.reads s.me)) [] [] (o.2.writesLeft s.me ow))))

/-- Whether every access that entry k has still to make or perform is to UO pages (11 R245), as far as its elements and their addresses are known. -/
def State.uoEntry (s : State) (k : Nat) (e : Entry) : Bool :=
  e.ops.all (fun op => (op.isLoad || op.isStore) && (s.me.portsOf op).isEmpty) && !s.unsure k e
    && (e.works k).all (fun w => (s.liveElems w (e.pendingGroups s.me w)).all (fun i => s.pageKind w i == some 2))
    && e.held.all (fun h => h.kind == 2)

/-- Whether an entry still has elements to read from other packages (21 R383), or may have. -/
def State.readsFar (s : State) (k : Nat) (e : Entry) : Bool :=
  !e.complete s.me && (e.works k).any (fun w =>
    (w.op.isLoad && (s.remoteWork w || s.unsure k e)) || (!(s.me.portsOf w.op).isEmpty && (s.remotePort w || s.unsure k e)))

/-- Whether an entry still has bytes for other packages, or may have. -/
def State.writesFar (s : State) (k : Nat) (e : Entry) : Bool :=
  e.held.any (fun h => !h.far.isEmpty) ||
    (!e.complete s.me && (e.works k).any (fun w =>
      (w.op.isStore && (s.remoteWork w || s.unsure k e)) ||
        ((w.op.vwrites.bind s.me.port).isSome && (s.remotePort w || s.unsure k e))))

/-- The predecessor side of a fence (11 R257) for the path set `pred` (bit 0 S, 1 V, 2 M, 3 C, 4 G, 5 W, 6 F): what it covers is done; without
`.uo` accesses to UO pages are not covered. S accesses and scalar remote loads are complete when their instruction is (log 4). -/
def State.fenceReady (s : State) (uo : Bool) (pred : BitVec 7) : Bool :=
  let t := s.me
  let cl := s.cluster t.cluster
  let free (h : StoreGroup) : Bool := !uo && h.kind == 2
  (!pred.getLsbD 1 || (t.openEntries.all (fun p => !uo && s.uoEntry p.1 p.2) && t.st.all (fun l => l.all free)))
    && (!pred.getLsbD 2 || t.openEntries.all (fun p => !p.2.ops.any EOp.isMatrix))
    && (!pred.getLsbD 3 || cl.copies.all (fun c => c.tid != t.tid))
    && (!pred.getLsbD 4 || (t.openEntries.all (fun p => !p.2.op.isAwl || (!uo && s.uoEntry p.1 p.2)) && t.gq.all (fun l => l.all free)))
    && (!pred.getLsbD 5 || cl.welts.all (fun w => w.tid != t.tid))
    && (!pred.getLsbD 6 || t.openEntries.all (fun p => !s.readsFar p.1 p.2))

/-- fence below pod scope (11 R257). -/
def execFence (sc : Scope) (uo : Bool) (pred succ : BitVec 7) (s : State) : Out :=
  if s.fenceReady uo pred then .next (s.fenceAfter sc succ).bump else stall s

/-- The package that a destination line of a copy lies in, where that is another one. -/
def State.copyPkg (s : State) (c : Copy) (l : Nat) : Option Nat :=
  match s.engineXlat c.env .store (BitVec.ofNat 64 (128 * l)) with
  | .ok ⟨.far p _, _, _⟩ => some p
  | _ => none

/-- Every remote write of the thread has left the package, those of its copies among them (21 R385, R393). -/
def State.remoteLeft (s : State) : Bool :=
  (s.cluster s.me.cluster).copies.all (fun c =>
      c.tid != s.me.tid || c.failed.isSome || c.lines.all (fun l => c.landed.contains l || (s.copyPkg c l).isNone))
    && s.me.st.all (fun l => l.all (fun h => h.far.isEmpty)) && s.me.gq.all (fun l => l.all (fun h => h.far.isEmpty))
    && s.me.openEntries.all (fun p => !s.writesFar p.1 p.2)

/-- The lowest of some packages with their status, and the status of a sweep (21 R393). -/
def sweepResult (bad : List (Nat × Nat)) : Word × Word :=
  if bad.isEmpty then (0, 0)
  else
    let p := minOf (bad.map (·.1))
    let st := if bad.any (fun b => b.2 == 1) then 1 else 2
    let p := if st = 1 then minOf ((bad.filter (fun b => b.2 == 1)).map (·.1)) else p
    (BitVec.ofNat 64 (st + p * 2 ^ 32), BitVec.ofNat 64 (p * 2 ^ 32))

/-- Markers to every package of the sweep set; the echoes are awaited (21 R393). One that no route of the pod serves any more gets none (R382). -/
def State.sendMarkers (s : State) : State :=
  let s' := s.me.sweep.foldl (fun s p => if s.reaches p.1 then s.sendOrLose p.1 (.marker s.me.tid s.me.ep p.2 s.me.bto.toNat) else s) s
  { s' with me := { s'.me with ask := .sweeping s.time (s.me.sweep.map (·.1)) [] } }

/-- fence.pd (11 R257, 21 R393): predecessor side, successor side, sweep, status. -/
def execFencePd (uo : Bool) (d : XReg) (pred succ : BitVec 7) (s : State) : Out :=
  let done (s : State) (bad : List (Nat × Nat)) : Out :=
    let r := sweepResult bad
    let me := { s.me with ask := .none, sweep := [], ep := s.fab.nextEp, einfo := if bad.isEmpty then s.me.einfo else r.2 }
    finish ({ s with me := me, fab := { s.fab with nextEp := s.fab.nextEp + 1 } } : State) d r.1
  match s.me.ask with
  | .sweeping _ left bad => if left.isEmpty then done s bad else stall s
  | _ =>
    if !s.fenceReady uo pred || !s.remoteLeft then stall s
    else if s.me.sweep.isEmpty then done (s.fenceAfter .pd succ) []
    else stall (s.fenceAfter .pd succ).sendMarkers

/-- Whether what a wait waits for has come about (14 R269, R270, 15 R299), at the home `h` it tests. -/
def State.waitMet (s : State) (w : Wait) (t : Thread) : Bool :=
  match s.waitAt w t with
  | .error _ => false
  | .ok h =>
    match w.kind with
    | .word => BitVec.ofNat 64 (s.waitNumber h 8) != w.value
    | .half => BitVec.ofNat 32 (s.waitNumber h 4) != w.value.extractLsb' 0 32
    | .copy => !(s.cluster t.cluster).copies.any (fun c => c.tid == t.tid && c.ident.toNat == h)
    | .buoy => BitVec.ofNat 4 (s.mem.number (h + 4) 4) != w.value.extractLsb' 0 4

/-- Whether a test of a wait takes a trap: its word is poisoned, or cannot be reached any more (03 R72). -/
def State.waitPoisoned (s : State) (w : Wait) (t : Thread) : Bool := match s.waitAt w t with | .error _ => true | .ok _ => false

/-- A wait is issued (14 R269): the condition is tested once; unmet and within its bound, the thread waits. -/
def beginWait (s : State) (w : Wait) : Out :=
  if s.waitPoisoned w s.me then .next (s.trapWait w)
  else if s.waitMet w s.me then .next (s.endWait w 0)
  else if w.deadline ≤ s.time then .next (s.endWait w 1)
  else .next { s with me := { s.me with wait := some w, status := .waiting } }

/-- The deadline of a bound (14 R269). -/
def State.deadline (s : State) (bound : Word) : Nat := min (s.time + bound.toNat) (2 ^ 64 - 1)

/-- waitaddr and waitaddr.32 (14 R269). -/
def waitWord (kind : WaitKind) (size : Nat) (d a b c : XReg) (off : Imm19) (s : State) : Out :=
  let ea := s.getX a + imm19 off
  match s.waitHome ea size with
  | .error bad => trapA s bad.code bad.detail ea
  | .ok h => beginWait (s.hit none ea) ⟨kind, h, ea, s.getX b, d, s.deadline (s.getX c), none⟩

def execWaitaddr (d a b c : XReg) (off : Imm19) (s : State) : Out := waitWord .word 8 d a b c off s
def execWaitaddr32 (d a b c : XReg) (off : Imm19) (s : State) : Out := waitWord .half 4 d a b c off s

/-- cewait (14 R270). -/
def execCewait (d a c : XReg) (s : State) : Out :=
  beginWait s ⟨.copy, (s.getX a).toNat % 2 ^ 16, 0, 0, d, s.deadline (s.getX c), none⟩

/-- bywait (15 R299). -/
def execBywait (d a b c : XReg) (off : Imm19) (s : State) : Out :=
  let ea := s.getX a + imm19 off
  match s.buoyHome .load ea with
  | .error bad => trapA s bad.code bad.detail ea
  | .ok (h, _) => beginWait s ⟨.buoy, h, ea, s.getX b, d, s.deadline (s.getX c), none⟩

/-- byinit (15 R297). -/
def execByinit (d a b : XReg) (off : Imm19) (s : State) : Out :=
  let ea := s.getX a + imm19 off
  let x := s.getX b
  match s.buoyHome .store ea with
  | .error bad => trapA s bad.code bad.detail ea
  | .ok (h, _) =>
    if x.extractLsb' 0 16 = 0 ∨ x.extractLsb' 32 32 ≠ 0 then finish s d 2
    else
      let low := (x.extractLsb' 0 16).toNat + (x.extractLsb' 16 16).toNat * 2 ^ 48 + 2 ^ 37
      finish { s with mem := s.mem.perform (some s.me.tid) none (wholeBytes h (leBytes 16 low)) } d 0

/-- Buoy fields (15 R296). -/
def byExpect (b : BitVec 128) : Nat := (b.extractLsb' 0 16).toNat
def byArrived (b : BitVec 128) : Nat := (b.extractLsb' 16 16).toNat
def byPhase (b : BitVec 128) : BitVec 4 := b.extractLsb' 32 4
def byCrew (b : BitVec 128) : BitVec 16 := b.extractLsb' 48 16

/-- A buoy with the fields that an arrival writes. -/
def byWith (b : BitVec 128) (ovr : Bool) (arrived : Nat) (phase : BitVec 4) (tid stamp : Nat) : BitVec 128 :=
  BitVec.ofNat 24 tid ++ BitVec.ofNat 40 stamp ++ byCrew b ++ b.extractLsb' 38 10 ++ b.extractLsb' 37 1 ++ BitVec.ofBool ovr ++ phase
    ++ BitVec.ofNat 16 arrived ++ b.extractLsb' 0 16

/-- The arrival of 15 R298: status and the buoy, where it is written. -/
def arrive (b : BitVec 128) (crew : BitVec 16) (tid time n : Nat) : Nat × Option (BitVec 128) :=
  let last := (b.extractLsb' 104 24).toNat
  let stamp := (b.extractLsb' 64 40).toNat
  if !b.getLsbD 37 then (4, none)
  else if byCrew b ≠ 0 ∧ byCrew b ≠ crew then (3, none)
  else if byExpect b < byArrived b + n then (2, some (byWith b true (byArrived b) (byPhase b) last stamp))
  else if byArrived b + n = byExpect b then (1, some (byWith b (b.getLsbD 36) 0 (byPhase b + 1) tid time))
  else (0, some (byWith b (b.getLsbD 36) (byArrived b + n) (byPhase b) tid stamp))

/-- byarrive (15 R298, 16 R305): its fence part, then one action at the home. -/
def execByarrive (d a : XReg) (n : BitVec 8) (s : State) : Out :=
  let ea := s.getX a
  match s.buoyHome .atomic ea with
  | .error bad => trapA s bad.code bad.detail ea
  | .ok (h, sc) =>
    if !s.fenceReady true 7 || s.mem.isEmptyAt h 16 then stall s
    else
      match s.mem.poisonAt h 16 with
      | some w => trapA s cPoison 0 (ea + BitVec.ofNat 64 (8 * w - h))
      | none =>
        let s := s.fenceAfter sc 1
        let b := BitVec.ofNat 128 (s.mem.number h 16)
        let r := arrive b s.me.crew s.me.tid s.time n.toNat
        let s' := match r.2 with
          | some b' => { s with mem := s.mem.perform (some s.me.tid) none (wholeBytes h (leBytes 16 b'.toNat)) }
          | none => s
        finish s' d (BitVec.ofNat 64 (r.1 + 16 * (byPhase b).toNat))

/-- lnempty (14 R267): the whole run lies in one scratchpad window. It changes no data: its traps report a read, W = 0 (log 12). -/
def execLnempty (a b : XReg) (off : Imm19) (s : State) : Out :=
  let ea := s.getX a + imm19 off
  let n := (s.getX b).toNat
  if n = 0 then .next s.bump
  else if ea.toNat % 128 ≠ 0 then trapA s cMisaligned (detailOf .load (s.peekRemote s.env ea)) ea
  else
    let last := ea.toNat + 128 * (n - 1)
    let home (va : Nat) : Option Nat :=
      if va < windowRegion ∨ 2 ^ 52 ≤ va then none
      else match s.translate s.env .load none (BitVec.ofNat 64 va) with
        | .ok ⟨.near h, _, _⟩ => if isScratch h then some h else none
        | _ => none
    match home ea.toNat, home last with
    | some h, some g =>
      if g = h + 128 * (n - 1) then
        .next { s with mem := s.mem.setEmpty ((List.range n).map (fun i => h / 128 + i)) }.bump
      else trapA s cAccess (detailOf .load false) ea
    | _, _ => trapA s cAccess (detailOf .load (s.peekRemote s.env ea)) ea

/-- A waiting or parked thread is told that its wait is over (01 R25): a parked one keeps the status until it is placed, one on a halted core
until issue resumes (04 R112). Status 2 is the trap of a word that cannot be read. -/
def State.tellWait (s : State) (tid : Nat) (w : Wait) (status : Word) : State :=
  s.withFocus tid (fun s =>
    let s' : State := { s with me := { s.me with wait := some { w with done := some status } } }
    if s.me.status = .waiting ∧ !s.halted s.me.core then s'.resumeWait
    else if s.me.status = .parked then ({ s' with me := { s'.me with levelSince := s.time } }).arrival s.me.tid
    else s')

/-- The wait of a thread that is still pending. -/
def State.pendingWait (s : State) (tid : Nat) : Option (Thread × Wait) :=
  match s.thread tid with
  | some t =>
    if t.status = .waiting ∨ t.status = .parked then
      match t.wait with
      | some w => if w.done.isNone then some (t, w) else none
      | none => none
    else none
  | none => none

/-- The status a test of a wait gives (14 R269): 2 for a trap, 0 where the condition is met. -/
def State.testWait (s : State) (w : Wait) (t : Thread) : Option Word :=
  if s.waitPoisoned w t then some 2 else if s.waitMet w t then some 0 else none

/-- WAIT_EVENT (14 R269, R270, 15 R299): the condition is tested. -/
def waitEventNow (tid : Nat) (s : State) : State :=
  match s.pendingWait tid with
  | none => s
  | some (t, w) =>
    match s.testWait w t with
    | some st => s.tellWait tid w st
    | none => s

def execWaitEvent (tid : Nat) (s : State) : Out := .next (waitEventNow tid s)

/-- WAIT_DEADLINE (01 R25): TIME reaches the deadline; what the test then finds goes before the timeout (14 R269). -/
def waitDeadlineNow (tid : Nat) (s : State) : State :=
  match s.pendingWait tid with
  | none => s
  | some (t, w) =>
    let s := s.tick w.deadline
    s.tellWait tid w ((s.testWait w t).getD 1)

def execWaitDeadline (tid : Nat) (s : State) : Out := .next (waitDeadlineNow tid s)

end Sys2Proof.Machine
end

