-- ==== Sys2Proof/Machine/Welt.lean ====
section
/-!
DEFINITION. The Welt unit (14 R277 to R281, 17 R306): acceptance of a block, its headers, rows of merge-add and compress, completion and
fault records.
-/
namespace Sys2Proof.Machine

/-- Fields of a Welt block (14 R278). -/
def wbCtl (b : BitVec 512) : BitVec 32 := b.extractLsb' 0 32
def wbCompress (b : BitVec 512) : Bool := (wbCtl b).extractLsb' 0 2 == 1
def wbKeepZero (b : BitVec 512) : Bool := (wbCtl b).getLsbD 2
def wbTag (b : BitVec 512) : BitVec 4 := (wbCtl b).extractLsb' 4 4
def wbRow0 (b : BitVec 512) : Nat := (b.extractLsb' 32 32).toNat
def wbRows (b : BitVec 512) : Nat := (b.extractLsb' 64 32).toNat
def wbFval (b : BitVec 512) : BitVec 32 := b.extractLsb' 96 32
def wbAhdr (b : BitVec 512) : Word := b.extractLsb' 128 64
def wbBhdr (b : BitVec 512) : Word := b.extractLsb' 192 64
def wbOc (b : BitVec 512) : Word := b.extractLsb' 256 64
def wbOv (b : BitVec 512) : Word := b.extractLsb' 320 64
def wbOcnt (b : BitVec 512) : Word := b.extractLsb' 384 64
def wbFlag (b : BitVec 512) : Word := b.extractLsb' 448 64

/-- Formats a Welt block may name (14 R278). -/
def wbFmt (b : BitVec 512) : Fmt := (Fmt.ofCode (wbTag b)).getD .fp64
def wbSize (b : BitVec 512) : Nat := (wbFmt b).width / 8

/-- A block whose fields break 14 R278 is rejected with reason 7. -/
def wbValid (b : BitVec 512) : Bool :=
  let op := (wbCtl b).extractLsb' 0 2
  let tag := (wbTag b).toNat
  decide (op.toNat < 2) && !(wbCompress b && wbKeepZero b) && !(wbCtl b).getLsbD 3 && (wbCtl b).extractLsb' 8 24 == 0
    && decide ((1 ≤ tag ∧ tag ≤ 4) ∨ (9 ≤ tag ∧ tag ≤ 12)) && decide (wbRow0 b + wbRows b ≤ 2 ^ 32)
    && (wbAhdr b).toNat % 32 == 0 && (wbBhdr b).toNat % 32 == 0 && !(wbCompress b && wbBhdr b != 0)

/-- What welt answers for a block, and the state in which it is queued (14 R277). -/
def State.acceptWelt (s : State) (b : BitVec 512) : Word × State :=
  let env : Env := ⟨s.me.core, 0xFF, s.me.root, s.me.priv⟩
  if !wbValid b then (BitVec.ofNat 64 (2 ^ 62 + 7 * 2 ^ 16), s)
  else if (wbFlag b).toNat % 16 ≠ 0 ∨ !s.inScratch env (wbFlag b) then (BitVec.ofNat 64 (2 ^ 62 + 8 * 2 ^ 16), s)
  else if 16 ≤ (s.cluster s.me.cluster).welts.length then (BitVec.ofNat 64 (2 ^ 63), s)
  else
    (0, s.withCluster s.me.cluster (fun c => { c with welts := c.welts ++
      [⟨s.me.tid, s.me.lid, s.me.root, s.me.priv, s.me.core, b, false, 0, 0, 0, []⟩] }))

/-- welt (14 R277): the block is read as eight loads with the traps of 03 R72. -/
def execWelt (d a : XReg) (off : Imm19) (s : State) : Out :=
  match s.readBlock (s.getX a + imm19 off) with
  | .wait s' => stall s'
  | .bad s' code detail addr => trapA s' code detail addr
  | .data b s' => finish (s'.acceptWelt b).2 d (s'.acceptWelt b).1

/-- Why the unit cannot go on: it waits for a line, or it stops. -/
inductive WeltStop where
  | wait
  | stop (f : EngFault)
  deriving DecidableEq, Repr

def WeltBlock.env (w : WeltBlock) : Env := ⟨w.core, 0xFF, w.root, w.priv⟩

/-- The home of a byte the unit may reach (17 R306): local translated memory and the three scratchpad windows. -/
def State.weltHome (s : State) (w : WeltBlock) (acc : Acc) (va : Word) : Except WeltStop Nat :=
  match s.engineXlat w.env acc va 1 with
  | .error b => .error (.stop ⟨if b.code = cPage then cPage else cAccess, va⟩)
  | .ok x =>
    match x.place with
    | .near h => .ok h
    | _ => .error (.stop ⟨cAccess, va⟩)

/-- A byte as the unit reads it: of memory, or of the capability table where a leaf maps it read-only (20 R351). -/
def State.weltByte (s : State) (w : WeltBlock) (va : Word) : Except WeltStop Byte :=
  match s.engineXlat w.env .load va 1 with
  | .ok ⟨.cap o, _, _⟩ => if va.toNat < windowRegion then .ok (s.capByte o) else .error (.stop ⟨cAccess, va⟩)
  | _ =>
    match s.weltHome w .load va with
    | .error e => .error e
    | .ok h =>
      if s.mem.isEmptyAt h 1 then .error .wait
      else if (s.mem.poisonAt h 1).isSome then .error (.stop ⟨cPoison, va⟩)
      else .ok (s.mem.byte h)

/-- Read n bytes as a number (14 R278 to R281). -/
def State.weltRead (s : State) (w : WeltBlock) (va : Word) : Nat → Except WeltStop Nat
  | 0 => .ok 0
  | n + 1 =>
    match s.weltByte w va with
    | .error e => .error e
    | .ok b =>
      match s.weltRead w (va + 1) n with
      | .error e => .error e
      | .ok r => .ok (b.toNat + 256 * r)

/-- Write n bytes of a number; the scratchpad lines written are noted in the block. -/
def State.weltWrite (s : State) (w : WeltBlock) (va : Word) (n v : Nat) : Except WeltStop (State × List Nat) :=
  let homes := (List.range n).map (fun i => s.weltHome w .store (va + BitVec.ofNat 64 i))
  match homes.findSome? (fun h => match h with | .error e => some e | .ok _ => none) with
  | some e => .error e
  | none =>
    let bs : List MaskedByte := ((List.range n).zip homes).filterMap (fun p =>
      match p.2 with | .ok h => some ⟨h, BitVec.ofNat 8 (v / 256 ^ p.1), 0xFF⟩ | .error _ => none)
    .ok ({ s with mem := s.mem.perform (some w.tid) none bs }, touchedLines bs)

/-- A header whose fields are valid (14 R278). -/
def headOk (dense : Bool) (h : BitVec 256) : Bool :=
  h.extractLsb' 192 64 == 0 &&
    (!dense || (h.extractLsb' 160 32 == 0 && decide (1 ≤ (h.extractLsb' 128 32).toNat ∧ (h.extractLsb' 128 32).toNat ≤ 65536)))

/-- Read a header (14 R278); an invalid one stops the block at the header's address. -/
def State.weltHead (s : State) (w : WeltBlock) (dense : Bool) (va : Word) : Except WeltStop (BitVec 256) :=
  match s.weltRead w va 32 with
  | .error e => .error e
  | .ok n => if headOk dense (BitVec.ofNat 256 n) then .ok (BitVec.ofNat 256 n) else .error (.stop ⟨cAccess, va⟩)

/-- The block as it starts: both headers read. -/
def State.weltStart (s : State) (w : WeltBlock) : Except WeltStop WeltBlock :=
  let c := wbCompress w.block
  match s.weltHead w c (wbAhdr w.block) with
  | .error e => .error e
  | .ok a =>
    if c then .ok { w with started := true, headA := a }
    else
      match s.weltHead w false (wbBhdr w.block) with
      | .error e => .error e
      | .ok b => .ok { w with started := true, headA := a, headB := b }

/-- Arrays of a CSR header; base, stride and columns of a dense one. -/
def hdA (h : BitVec 256) : Word := h.extractLsb' 0 64
def hdB (h : BitVec 256) : Word := h.extractLsb' 64 64
def hdC (h : BitVec 256) : Word := h.extractLsb' 128 64
def hdCols (h : BitVec 256) : Nat := (h.extractLsb' 128 32).toNat

/-- Address of element i of an array. -/
def elemAt (base : Word) (size i : Nat) : Word := base + BitVec.ofNat 64 (size * i)

/-- Rows as the unit performs them: the state so far, the scratchpad lines written, and why it stopped, if it did. -/
structure RowRun where
  s : State
  lines : List Nat
  stop : Option WeltStop

/-- Write entry n of the output row that begins at o (14 R279, R280): coordinate, then value. -/
def RowRun.put (r : RowRun) (w : WeltBlock) (at' : Nat) (c v : Nat) : RowRun :=
  match r.s.weltWrite w (elemAt (wbOc w.block) 4 at') 4 c with
  | .error e => { r with stop := some e }
  | .ok (s1, l1) =>
    match s1.weltWrite w (elemAt (wbOv w.block) (wbSize w.block) at') (wbSize w.block) v with
    | .error e => ⟨s1, r.lines ++ l1, some e⟩
    | .ok (s2, l2) => ⟨s2, r.lines ++ l1 ++ l2, none⟩

/-- Write the count of row i. -/
def RowRun.count (r : RowRun) (w : WeltBlock) (i n : Nat) : RowRun :=
  match r.stop with
  | some _ => r
  | none =>
    match r.s.weltWrite w (elemAt (wbOcnt w.block) 4 i) 4 n with
    | .error e => { r with stop := some e }
    | .ok (s1, l1) => ⟨s1, r.lines ++ l1, none⟩

/-- A value is zero: +0, -0 or integer 0 (14 R279). -/
def weltZero (f : Fmt) (v : Nat) : Bool :=
  if f.isInt then v == 0 else v % 2 ^ (f.width - 1) == 0

/-- sum of 14 R279: wraps for integers, round_rne for floats; FCSR and FZ do not apply. -/
def weltSum (f : Fmt) (a b : Nat) : Nat :=
  if f.isInt then (a + b) % 2 ^ f.width
  else (rounded f .rne false (fAdd .rne ((layoutOf f).decode a) ((layoutOf f).decode b))).bits

/-- Coordinate and value of entry p of an operand. -/
def State.weltCoord (s : State) (w : WeltBlock) (h : BitVec 256) (p : Nat) : Except WeltStop Nat :=
  s.weltRead w (elemAt (hdB h) 4 p) 4
def State.weltValue (s : State) (w : WeltBlock) (h : BitVec 256) (p : Nat) : Except WeltStop Nat :=
  s.weltRead w (elemAt (hdC h) (wbSize w.block) p) (wbSize w.block)

/-- Write an entry taken from one operand. -/
def RowRun.take (r : RowRun) (w : WeltBlock) (h : BitVec 256) (p at' c : Nat) : RowRun :=
  match r.s.weltValue w h p with
  | .error e => { r with stop := some e }
  | .ok v => r.put w at' c v

/-- What an iteration of 14 R279 takes: an entry of A, of B, or both. -/
inductive MergePick where
  | fromA (c : Nat)
  | fromB (c : Nat)
  | both (c : Nat)

def State.mergePick (s : State) (w : WeltBlock) (pa ea pb eb : Nat) : Except WeltStop MergePick :=
  if eb ≤ pb then (s.weltCoord w w.headA pa).map .fromA
  else if ea ≤ pa then (s.weltCoord w w.headB pb).map .fromB
  else
    match s.weltCoord w w.headA pa, s.weltCoord w w.headB pb with
    | .error e, _ => .error e
    | _, .error e => .error e
    | .ok ca, .ok cb =>
      let ia := (BitVec.ofNat 32 ca).toInt
      let ib := (BitVec.ofNat 32 cb).toInt
      .ok (if ia < ib then .fromA ca else if ib < ia then .fromB cb else .both ca)

/-- The loop of 14 R279 over one row, at most `fuel` entries; n entries are written. -/
def mergeLoop (w : WeltBlock) (ea eb o : Nat) : Nat → Nat → Nat → Nat → RowRun → RowRun × Nat
  | 0, _, _, n, r => (r, n)
  | fuel + 1, pa, pb, n, r =>
    if r.stop.isSome ∨ (ea ≤ pa ∧ eb ≤ pb) then (r, n)
    else
      match r.s.mergePick w pa ea pb eb with
      | .error e => ({ r with stop := some e }, n)
      | .ok (.fromA c) => mergeLoop w ea eb o fuel (pa + 1) pb (n + 1) (r.take w w.headA pa (o + n) c)
      | .ok (.fromB c) => mergeLoop w ea eb o fuel pa (pb + 1) (n + 1) (r.take w w.headB pb (o + n) c)
      | .ok (.both c) =>
        match r.s.weltValue w w.headA pa, r.s.weltValue w w.headB pb with
        | .error e, _ => ({ r with stop := some e }, n)
        | _, .error e => ({ r with stop := some e }, n)
        | .ok va, .ok vb =>
          let v := weltSum (wbFmt w.block) va vb
          if weltZero (wbFmt w.block) v && !wbKeepZero w.block then mergeLoop w ea eb o fuel (pa + 1) (pb + 1) n r
          else mergeLoop w ea eb o fuel (pa + 1) (pb + 1) (n + 1) (r.put w (o + n) c v)

/-- The row pointers of both operands of row i (14 R279): the first entry of each and the one behind its last. -/
def State.mergePtrs (s : State) (w : WeltBlock) (i : Nat) : Except WeltStop (Nat × Nat × Nat × Nat) := do
  let ptr (h : BitVec 256) (k : Nat) := s.weltRead w (elemAt (hdA h) 4 k) 4
  let pa ← ptr w.headA i
  let ea ← ptr w.headA (i + 1)
  let pb ← ptr w.headB i
  let eb ← ptr w.headB (i + 1)
  .ok (pa, ea, pb, eb)

/-- One row of merge-add (14 R279). -/
def State.mergeRow (s : State) (w : WeltBlock) (i : Nat) : RowRun :=
  match s.mergePtrs w i with
  | .ok (pa, ea, pb, eb) =>
    let r := mergeLoop w ea eb (pa + pb) ((ea - pa) + (eb - pb)) pa pb 0 ⟨s, [], none⟩
    r.1.count w i r.2
  | .error e => ⟨s, [], some e⟩

/-- The loop of 14 R280 over columns j on. -/
def compressLoop (w : WeltBlock) (i o : Nat) : List Nat → Nat → RowRun → RowRun × Nat
  | [], n, r => (r, n)
  | j :: js, n, r =>
    if r.stop.isSome then (r, n)
    else
      let size := wbSize w.block
      let va := hdA w.headA + BitVec.ofNat 64 i * hdB w.headA + BitVec.ofNat 64 (j * size)
      match r.s.weltRead w va size with
      | .error e => ({ r with stop := some e }, n)
      | .ok v => if weltZero (wbFmt w.block) v then compressLoop w i o js n r else compressLoop w i o js (n + 1) (r.put w (o + n) j v)

/-- One row of compress (14 R280). -/
def State.compressRow (s : State) (w : WeltBlock) (i : Nat) : RowRun :=
  let r := compressLoop w i (i * hdCols w.headA) (List.range (hdCols w.headA)) 0 ⟨s, [], none⟩
  r.1.count w i r.2

/-- The block a cluster's unit performs. -/
def State.weltNow (s : State) (cl : Nat) : Option WeltBlock := (s.cluster cl).welts.head?

def State.setWelt (s : State) (cl : Nat) (w : WeltBlock) : State :=
  s.withCluster cl (fun c => { c with welts := w :: c.welts.tail })

/-- WELT_BLOCK_START (14 R278). -/
def startWelt (cl : Nat) (s : State) : State :=
  match s.weltNow cl with
  | some w =>
    if w.started then s
    else
      match s.weltStart w with
      | .ok w' =>
        let heads := wbAhdr w.block :: (if wbCompress w.block then [] else [wbBhdr w.block])
        (s.holdSources w.env (heads.flatMap (fun a => (List.range 32).map (fun b => a + BitVec.ofNat 64 b))) 1).setWelt cl w'
      | .error _ => s
  | none => s

def execWeltBlockStart (cl : Nat) (s : State) : Out := .next (startWelt cl s)

/-- The next row of the block, performed. -/
def State.weltRow (s : State) (w : WeltBlock) : RowRun :=
  let i := wbRow0 w.block + w.rowsDone
  if wbCompress w.block then s.compressRow w i else s.mergeRow w i

/-- The entries that row i may write (14 R279, R280): the first, and how many at most. -/
def State.weltSpan (s : State) (w : WeltBlock) (i : Nat) : Except WeltStop (Nat × Nat) :=
  if wbCompress w.block then .ok (i * hdCols w.headA, hdCols w.headA)
  else (s.mergePtrs w i).map (fun p => (p.1 + p.2.2.1, (p.2.1 - p.1) + (p.2.2.2 - p.2.2.1)))

/-- Whether row i may write in a line: its count, or one of its entries. A row whose pointers cannot be read yet may write in any. -/
def State.weltMayWrite (s : State) (w : WeltBlock) (line i : Nat) : Bool :=
  let hits (base : Word) (size p : Nat) : Bool :=
    ([0, size - 1] : List Nat).any (fun b =>
      match s.weltHome w .store (elemAt base size p + BitVec.ofNat 64 b) with | .ok h => h / 128 == line | .error _ => false)
  hits (wbOcnt w.block) 4 i ||
    (match s.weltSpan w i with
      | .ok (o, n) => (List.range n).any (fun k => hits (wbOc w.block) 4 (o + k) || hits (wbOv w.block) (wbSize w.block) (o + k))
      | .error .wait => true
      | .error (.stop _) => false)

/-- Whether a line that the unit has written may be written by a later row of the block: it is not full before (14 R265, R281; log 37). -/
def State.weltOpen (s : State) (w : WeltBlock) (line : Nat) : Bool :=
  (List.range (wbRows w.block - w.rowsDone)).any (fun k => s.weltMayWrite w line (wbRow0 w.block + w.rowsDone + k))

/-- What a row reads (14 R279, R280): its pointers, and every coordinate and value of its operands. -/
def State.weltReads (s : State) (w : WeltBlock) (i : Nat) : List Word :=
  let bytes (a : Word) (n : Nat) : List Word := (List.range n).map (fun b => a + BitVec.ofNat 64 b)
  let size := wbSize w.block
  if wbCompress w.block then bytes (hdA w.headA + BitVec.ofNat 64 i * hdB w.headA) (hdCols w.headA * size)
  else
    let operand (h : BitVec 256) (p e : Nat) : List Word :=
      bytes (elemAt (hdA h) 4 i) 8 ++ bytes (elemAt (hdB h) 4 p) (4 * (e - p)) ++ bytes (elemAt (hdC h) size p) (size * (e - p))
    match s.mergePtrs w i with
    | .ok (pa, ea, pb, eb) => operand w.headA pa ea ++ operand w.headB pb eb
    | .error _ => []

/-- WELT_MERGE_ROW and WELT_COMPRESS_ROW: one whole row, unless it waits or stops. A line that the unit writes no more becomes full (14 R265, R281). -/
def weltRowStep (compress : Bool) (cl : Nat) (s : State) : State :=
  match s.weltNow cl with
  | some w =>
    if !w.started || wbCompress w.block != compress || decide (wbRows w.block ≤ w.rowsDone) then s
    else
      let r := s.weltRow w
      match r.stop with
      | some _ => s
      | none =>
        let w' := { w with rowsDone := w.rowsDone + 1, lines := natInsertAll r.lines w.lines }
        let s' := r.s.holdSources w.env (s.weltReads w (wbRow0 w.block + w.rowsDone)) 1
        { s' with mem := s'.mem.setFull (w'.lines.filter (fun l => !s.weltOpen w' l)) }.setWelt cl
          { w' with lines := w'.lines.filter (s.weltOpen w') }
  | none => s

def execWeltMergeRow (cl : Nat) (s : State) : Out := .next (weltRowStep false cl s)
def execWeltCompressRow (cl : Nat) (s : State) : Out := .next (weltRowStep true cl s)

/-- Write the record of 14 R281: FAULT and NEXT, then STATUS; its scratchpad line becomes full (14 R265). -/
def State.weltRecord (s : State) (w : WeltBlock) (status : BitVec 32) (next : Nat) (fault : Word) : State :=
  match s.engineXlat w.env .store (wbFlag w.block) 1 with
  | .ok ⟨.near h, _, _⟩ =>
    let m := s.mem.perform (some w.tid) none (wholeBytes (h + 8) (leBytes 8 fault.toNat))
    let m := m.perform (some w.tid) none (wholeBytes (h + 4) (leBytes 4 next))
    let m := m.perform (some w.tid) none (wholeBytes h (leBytes 4 status.toNat))
    { s with mem := if isScratch h then m.setFull [h / 128] else m }
  | _ => s

/-- The block leaves the queue; the lines it wrote last become full (14 R265, R281). -/
def State.endWelt (s : State) (cl : Nat) (lines : List Nat) : State :=
  { s with mem := s.mem.setFull lines }.withCluster cl (fun c => { c with welts := c.welts.tail })

/-- WELT_COMPLETE (14 R281). -/
def completeWelt (cl : Nat) (s : State) : State :=
  match s.weltNow cl with
  | some w =>
    if w.started && decide (wbRows w.block ≤ w.rowsDone) then
      (s.weltRecord w (wbFval w.block) ((wbRow0 w.block + wbRows w.block) % 2 ^ 32) 0).endWelt cl w.lines
    else s
  | none => s

def execWeltComplete (cl : Nat) (s : State) : Out := .next (completeWelt cl s)

/-- WELT_FAULT (14 R281): what was written of the faulting row stands; its count is not written. -/
def faultWelt (cl : Nat) (s : State) : State :=
  match s.weltNow cl with
  | none => s
  | some w =>
    let halt (s : State) (lines : List Nat) (f : EngFault) : State :=
      let s := s.weltRecord w (~~~(wbFval w.block)) (wbRow0 w.block + w.rowsDone) f.word
      (s.withLaunch w.lid (f.inLaunch 2 w.tid)).endWelt cl lines
    if !w.started then
      match s.weltStart w with
      | .error (.stop f) => halt s [] f
      | _ => s
    else if wbRows w.block ≤ w.rowsDone then s
    else
      let r := s.weltRow w
      match r.stop with
      | some (.stop f) => halt (r.s.holdSources w.env (s.weltReads w (wbRow0 w.block + w.rowsDone)) 1) (natInsertAll r.lines w.lines) f
      | _ => s

def execWeltFault (cl : Nat) (s : State) : Out := .next (faultWelt cl s)

end Sys2Proof.Machine
end

