-- ==== Sys2Proof/Machine/Threads.lean ====
section
/-!
DEFINITION. Launches, crews, thread control, completion records, trap entry, halts and steps (15 R282 to R295, 04 R101, R111, R112).
-/
namespace Sys2Proof.Machine

/-- Enabled clusters that a launch block names, rising (15 R291). -/
def State.namedClusters (s : State) (b : BitVec 512) : List Nat :=
  (List.range 96).filter (fun c => (s.cluster c).enabled && (blkMask b == 0 || (blkMask b).getLsbD c))

/-- Cores of a cluster that are not fenced (15 R285, R290). -/
def State.liveCores (s : State) (cl : Nat) : List Nat := (clusterCores cl).filter (fun c => s.coreLanes c != 0)

/-- The cluster of a gang of a block: the lowest with COUNT cores (15 R290 reason 8, R291). -/
def State.gangCluster (s : State) (b : BitVec 512) : Option Nat :=
  (s.namedClusters b).find? (fun c => decide (blkCount b ≤ (s.liveCores c).length))

/-- L of a gang (15 R285): the largest count not above GRANT that COUNT cores offer. -/
def State.gangCount (s : State) (b : BitVec 512) (cl : Nat) : Nat :=
  (([8, 7, 4, 2, 1] : List Nat).find? (fun l =>
    decide (l ≤ blkGrant b ∧ blkCount b ≤ ((s.liveCores cl).filter (fun c => !(s.offers c l).isEmpty)).length))).getD 1

/-- The lowest reason of 15 R290 for which a launch is rejected. `sup` says whether the launcher may ask for supervisor level. -/
def State.launchReason (s : State) (b : BitVec 512) (sup : Bool) : Option Nat :=
  let named := s.crews.find? (fun c => c.num == blkCrew b)
  let mode := blkCmode b
  let crewBad : Bool :=
    if mode = 0 then blkCrew b != 0
    else blkCrew b == 0
      || (if mode = 2 then (match named with | some c => c.gang.isSome | none => true) else named.isSome)
  if (blkEntry b).toNat % 8 ≠ 0 ∨ 2 ^ 52 ≤ (blkEntry b).toNat then some 1
  else if blkCount b = 0 ∨ 1048576 < blkCount b then some 2
  else if 3 < mode ∨ blkGrant b = 0 ∨ 8 < blkGrant b ∨ (blkPrio b).extractLsb' 3 4 ≠ 0 ∨ b.extractLsb' 200 24 ≠ 0 then some 3
  else if blkSup b && !sup then some 4
  else if (blkMask b).extractLsb' 96 32 ≠ 0 ∨ (s.namedClusters b).isEmpty then some 5
  else if blkCrec b = 0 ∨ (blkCrec b).toNat % 64 ≠ 0 ∨ (blkSiga b).toNat % 4 ≠ 0 then some 6
  else if crewBad then some 7
  else if mode = 3 && (s.gangCluster b).isNone then some 8
  else none

/-- A thread whose number may be given again: it has retired and the record of its launch is written (01 R10), and nothing in the package goes by its
number any more: stores, copies, Welt operations, beacon channels (R14; log 5). -/
def State.reusable (s : State) (t : Thread) : Bool :=
  t.status == .retired && !s.launches.any (fun l => l.lid == t.lid && l.live) && t.st.isEmpty && t.gq.isEmpty
    && s.clusters.all (fun c => c.copies.all (fun x => x.tid != t.tid) && c.welts.all (fun w => w.tid != t.tid))
    && s.fab.senders.all (fun c => c.tid != t.tid)

/-- Thread numbers that may not be given. -/
def State.usedTids (s : State) : List Nat := (s.threads.filter (fun t => !s.reusable t)).map (·.tid)

/-- The next n thread numbers that are free, from a number on (01 R10). Log 5. -/
def pickTids (used : List Nat) : Nat → Nat → Nat → List Nat
  | 0, _, _ => []
  | f + 1, a, n =>
    if n = 0 then []
    else if used.contains a then pickTids used f ((a + 1) % 2 ^ 24) n
    else a :: pickTids used f ((a + 1) % 2 ^ 24) (n - 1)

/-- A new thread (01 R14, 15 R291). -/
def newThread (b : BitVec 512) (lid root : Nat) (tvec : Word) (sup : Bool) (gangL now : Nat) (ep tid idx cl : Nat) : Thread :=
  let t := Thread.fresh tid
  { t with
    lid := lid
    idx := idx
    cluster := cl
    core := 16 * cl
    grantReq := blkGrant b
    gangL := gangL
    priv := if sup then .sup else .job
    pc := blkEntry b
    x := ((t.x.set 1 (blkArg b)).set 2 (BitVec.ofNat 64 idx)).set 3 (BitVec.ofNat 64 (blkCount b))
    crew := blkCrew b
    tvec := tvec
    root := root
    ep := ep + idx
    level := blkLevel b
    launchLevel := blkLevel b
    levelSince := now }

/-- The crew records after a launch (15 R283, R291). -/
def State.launchCrew (s : State) (b : BitVec 512) (cl l : Nat) : List Crew :=
  let n := blkCount b
  if blkCmode b = 0 then s.crews
  else if blkCmode b = 2 then
    s.crews.map (fun c => if c.num == blkCrew b then { c with members := c.members + n, live := c.live + 1 } else c)
  else s.crews ++ [⟨blkCrew b, n, if blkCmode b = 3 then some (cl, l) else none, 1⟩]

/-- An accepted launch (15 R289, R291): identifier, crew, threads. -/
def State.accept (s : State) (b : BitVec 512) (root : Nat) (tvec : Word) : State :=
  let lid := s.nextLid
  let n := blkCount b
  let gang := blkCmode b = 3
  let cl := (s.gangCluster b).getD 0
  let l := if gang then s.gangCount b cl else 0
  let named := s.namedClusters b
  let kept := s.others.filter (fun t => !s.reusable t)
  let tids := pickTids s.usedTids (n + s.usedTids.length) s.nextTid n
  let new := ((List.range tids.length).zip tids).map (fun p =>
    newThread b lid root tvec (blkSup b) l s.time s.fab.nextEp p.2 p.1 (if gang then cl else named.getD (p.1 % named.length) 0))
  let launch : Launch := ⟨lid, b, root, true, 0, 0, 0, 0, 0, 0, 0, 0, 0, none, 0, false⟩
  let s' := { s with
    nextLid := (lid + 1) % 2 ^ 32
    nextTid := ((tids.getLast?.getD s.nextTid) + 1) % 2 ^ 24
    launches := s.launches.filter (fun (x : Launch) => x.live) ++ [launch]
    crews := s.launchCrew b cl l
    fab := { s.fab with nextEp := s.fab.nextEp + n } }
  match s.reusable s.me, new with
  | true, t :: r => { s' with me := t, others := kept ++ r }
  | _, _ => { s' with others := kept ++ new }

/-- Whether the limits of 15 R289 leave room for a launch. One for which fewer than COUNT thread numbers are free finds none (log 5). -/
def State.launchRoom (s : State) (b : BitVec 512) : Bool :=
  decide ((s.launches.filter (fun x => x.live)).length < 4096)
    && decide ((s.threads.filter (fun t => t.status != .retired)).length + blkCount b ≤ 4194304)
    && decide (s.usedTids.length + blkCount b ≤ 2 ^ 24)

/-- launch (15 R289). -/
def execLaunch (d a : XReg) (off : Imm19) (s : State) : Out :=
  let ea := s.getX a + imm19 off
  match s.readBlock ea with
  | .wait s' => stall s'
  | .bad s' code detail addr => trapA s' code detail addr
  | .data b s' =>
    match s'.launchReason b (s'.me.priv == .sup) with
    | some r => finish s' d (BitVec.ofNat 64 (2 ^ 62 + r * 2 ^ 16))
    | none =>
      if s'.launchRoom b then finish (s'.accept b s'.me.root s'.me.tvec) d (BitVec.ofNat 64 s'.nextLid)
      else finish s' d (BitVec.ofNat 64 (2 ^ 63))

/-- join (15 R284). -/
def execJoin (d a : XReg) (s : State) : Out :=
  let c := (s.getX a).extractLsb' 0 16
  match if c = 0 then none else s.crews.find? (fun r => r.num == c) with
  | none => finish s d 1
  | some r =>
    if c = s.me.crew then finish s d 0
    else if r.gang.isSome then finish s d 2
    else
      let s1 := s.crewLeave s.me.crew
      let s2 := { s1 with
        crews := s1.crews.map (fun r => if r.num == c then { r with members := r.members + 1 } else r)
        me := { s1.me with crew := c } }
      finish s2 d 0

/-- leave (15 R284). -/
def execLeave (d : XReg) (s : State) : Out :=
  if s.me.crew = 0 then finish s d 1
  else
    let s1 := s.crewLeave s.me.crew
    finish { s1 with me := { s1.me with crew := 0 } } d 0

/-- yield (15 R286, 01 R24): the thread resumes after it. -/
def execYield (s : State) : Out := .next (if s.rival s.me then s.bump.parkEnter s.me.tid else s.bump)

/-- yield.park (15 R286): unconditional, for a supervisor. -/
def execYieldPark (s : State) : Out := supervisorOnly s (fun s => .next (s.bump.parkEnter s.me.tid))

/-- Whether the queues that exit waits for are empty (15 R287): the window too, since a trap of an earlier instruction is taken in its
place. -/
def Thread.exitReady (t : Thread) : Bool := t.win.isEmpty && t.cmdEmpty && t.valEmpty && t.stEmpty

/-- exit (15 R287): a held window is discarded with its reservations, then the thread drains, its channels are to be closed and it retires. While it waits
its status is known (01 R26). -/
def execExit (a : XReg) (s : State) : Out :=
  let s := if s.me.held then { s with me := { s.me with win := [], held := false, owed := [] } } else s
  let code := (s.getX a).extractLsb' 0 8
  if !s.me.exitReady then stall { s with me := { s.me with exiting := some code } }
  else
    let s1 := (s.closeChannels [s.me.tid]).crewLeave s.me.crew
    let s2 := { s1 with me := s1.me.retire }
    .next (s2.withLaunch s.me.lid (fun l => { l.addRetired 1 s.time with xcode := l.xcode ||| code }))

/-- hprio (15 R288): honoured where the thread may name the level. -/
def execHprio (lvl : BitVec 3) (s : State) : Out :=
  if s.me.priv = .sup ∨ s.me.launchLevel ≤ lvl.toNat then .next { s with me := { s.me with wantLevel := some lvl.toNat } }.bump
  else .next s.bump

/-- hafn (15 R288). -/
def execHafn (a : XReg) (s : State) : Out :=
  .next { s with me := { s.me with hafn := some ((s.getX a).toNat % 16) } }.bump

/-- lend (15 R293). -/
def lendNow (d a : XReg) (s : State) : Out :=
  let lid := (s.getX a).toNat % 2 ^ 32
  if s.launches.any (fun l => l.lid == lid && l.live) then .next ((s.setX d 0).bump.endLaunch lid 2) else finish s d 1

def execLend (d a : XReg) (s : State) : Out := supervisorOnly s (lendNow d a)

/-- The completion record (15 R294). -/
def Launch.record (l : Launch) : List Byte :=
  leBytes 1 l.endCode ++ leBytes 1 l.xcode.toNat ++ leBytes 2 0 ++ leBytes 4 l.faults ++ leBytes 4 l.started ++ leBytes 4 l.retired
    ++ leBytes 1 l.fcode.toNat ++ leBytes 1 l.fsrc.toNat ++ leBytes 2 0 ++ leBytes 4 l.ftid ++ leBytes 8 l.faddr.toNat
    ++ leBytes 8 (l.tstart.getD l.tend) ++ leBytes 8 l.tend ++ leBytes 4 l.lid ++ leBytes 12 0

/-- A write of the package through a launch's address space, or nothing where it is dropped (15 R295); one of the host window owns its lines (20 R354). -/
def State.launchWrite (s : State) (l : Launch) (va : Word) (bs : List Byte) : State :=
  if windowRegion ≤ va.toNat then s
  else
    match s.engineXlat ⟨0, 0xFF, l.root, if blkSup l.block then .sup else .job⟩ .store va 2 with
    | .ok ⟨.near h, _, _⟩ =>
      { s with mem := ((List.range bs.length).foldl (fun m i => m.holdHost true (h + i)) s.mem).perform none none (wholeBytes h bs) }
    | _ => s

/-- Whether a launch has ended with nothing under way (15 R295). -/
def State.launchDone (s : State) (l : Launch) : Bool :=
  l.live && decide (l.retired = blkCount l.block)
    && s.clusters.all (fun c => c.copies.all (fun x => x.lid != l.lid) && c.welts.all (fun w => w.lid != l.lid))
    && s.threads.all (fun t => t.lid != l.lid || (t.st.isEmpty && t.gq.isEmpty))

/-- LAUNCH_COMPLETE (15 R295): record, then signal word; the launch is no longer live, and no core knows it (R292). -/
def completeLaunch (lid : Nat) (s : State) : State :=
  match s.launches.find? (fun l => l.lid == lid && l.live) with
  | none => s
  | some l =>
    if !s.launchDone l then s
    else
      let s1 := s.launchWrite l (blkCrec l.block) l.record
      let s2 := if blkSiga l.block = 0 then s1 else s1.launchWrite l (blkSiga l.block) (leBytes 4 (blkSigv l.block).toNat)
      let s3 := { s2.withLaunch lid (fun l => { l with recorded := true, live := false }) with
        cores := s2.cores.map (fun c => { c with seen := c.seen.filter (fun n => n != lid) }) }
      if blkCmode l.block = 0 then s3
      else { s3 with crews := freeCrews (s3.crews.map (fun c => if c.num == blkCrew l.block then { c with live := c.live - 1 } else c)) }

def execLaunchComplete (lid : Nat) (s : State) : Out := .next (completeLaunch lid s)

/-- TRAP_ENTRY (04 R93, R101): a fault that is held enters, unless issue is halted (R112). -/
def enterHeld (tid : Nat) (s : State) : State :=
  s.withFocus tid (fun s =>
    match s.me.fault with
    | some f => if s.me.holds && !s.halted s.me.core then s.enterTrap f else s
    | none => s)

def execTrapEntry (tid : Nat) (s : State) : Out := .next (enterHeld tid s)

/-- Issue resumes on a core (04 R112): held faults enter, waits that ended complete. -/
def State.resumeIssue (s : State) (core : Nat) : State :=
  (s.holders core).foldl (fun s t => s.withFocus t.tid (fun s =>
    match s.me.fault with
    | some f => s.enterTrap f
    | none => if s.me.status == Status.waiting then s.resumeWait else s)) s

/-- DEBUG_HALT (04 R111, R112): a write of DBGCTL.HALT; writes are ignored until the unlock (20 R371). -/
def setHalt (core : Nat) (halt : Bool) (s : State) : State :=
  if !s.host.unlocked || decide (1536 ≤ core) then s
  else
    let s' := s.withCore core (fun c => { c with halt := halt, stepping := false })
    if halt then s' else s'.resumeIssue core

def execDebugHalt (core : Nat) (halt : Bool) (s : State) : Out := .next (setHalt core halt s)

/-- DEBUG_STEP (04 R111): one word of context CX issues, then issue stops. A held fault of the context enters as issue resumes. -/
def stepCore (core ctx : Nat) (s : State) : State :=
  if !s.host.unlocked || decide (1536 ≤ core ∨ 4 ≤ ctx) then s
  else
    let s' := match (s.holders core).find? (fun t => t.ctx == ctx) with
      | some t => s.withFocus t.tid (fun s =>
          match s.me.fault with
          | some f => s.enterTrap f
          | none => if s.me.status == Status.waiting then s.resumeWait else s)
      | none => s
    s'.withCore core (fun c => { c with halt := true, stepping := true, cx := BitVec.ofNat 2 ctx })

def execDebugStep (core ctx : Nat) (s : State) : Out := .next (stepCore core ctx s)

/-- CEDBG_PAUSE (04 R112). -/
def setPause (cl : Nat) (pause : Bool) (s : State) : State :=
  if s.host.unlocked then s.withCluster cl (fun c => { c with pause := pause }) else s

def execCedbgPause (cl : Nat) (pause : Bool) (s : State) : Out := .next (setPause cl pause s)

/-- DBGSTAT (04 R111) as the debug window shows it after an unlock. Issue has stopped once no pair word stands between its slots (R112). -/
def State.dbgStat (s : State) (core : Nat) : Word :=
  if !s.host.unlocked then 0
  else
    let pend := (List.range 4).foldl (fun n c =>
      if (s.holders core).any (fun t => t.ctx == c && t.fault.isSome) then n + 2 ^ c else n) 0
    let lqe := (s.holders core).all (fun t => (List.range t.lanes).all (fun l => t.laneDepth l == 0)) && (s.matrixQueue core).isEmpty
    BitVec.ofNat 64 (pend * 16 + lqe.toNat * 2 + (s.halted core && (s.holders core).all (fun t => !t.between)).toNat)

/-- CEDBG (04 R111) as the debug window shows it after an unlock. A copy that a pause has stopped between two lines is in progress: QUIET reads 0 (log 24). -/
def State.ceDbg (s : State) (cl : Nat) : Word :=
  if !s.host.unlocked then 0
  else BitVec.ofNat 64 (((s.cluster cl).copies.all (fun c => !c.running)).toNat * 2 + (s.cluster cl).pause.toNat)

end Sys2Proof.Machine
end

