-- ==== Sys2Proof/Machine/Fabric.lean ====
section
/-!
DEFINITION. The fabric: beacons (21 R386 to R392), sweeps (R393), reductions (R394 to R396), the route map (R378, R397), links and
ports (R376, R377, R380), and the packets that arrive (R381, R384). Events name a place in `inbox`, in the receiver table or among the
markers.
-/
namespace Sys2Proof.Machine

/-- The package that an address of the thread in focus lies in, where its leaf is marked remote. -/
def State.pkgOf (s : State) (va : Word) : Option Nat :=
  match s.leafFor (coreTlbs s.me.core none) (layerOf s.me.core) s.me.root va.toNat with
  | some (leaf, _) => if pteRmt leaf then some (ptePkg leaf).toNat else none
  | none => none

/-- Whether an element of a slot still stores to a package: an active one of a store or scatter, and one that a write port takes. -/
def State.elemWrites (s : State) (pkg : Nat) (w : Work) (i : Nat) : Bool :=
  let on : Bool := w.takes i && (s.me.kget w.op.mask.1 i || (!w.op.isStore && w.zeroMasked && w.takesMasked i))
  (on || w.op.isMeeting) && (s.elementStores w i).any (fun va => s.pkgOf va == some pkg)

/-- Whether entry k of the window still writes to a package (21 R388), or may, where its elements or their addresses are not known yet. A scatter-add
has no element in another package (21 R382). -/
def State.entryWrites (s : State) (pkg k : Nat) (e : Entry) : Bool :=
  e.held.any (fun h => h.far.any (fun p => p.1 == pkg)) ||
  (!e.complete s.me && (e.works k).any (fun w =>
    (match w.op with
      | .vscadd _ _ _ _ _ _ _ => false
      | op => op.isStore || s.me.pushes op)
    && (s.unsure k e
      || ((e.pendingGroups s.me w).flatMap (groupElems w.vt.perGroup)).any (fun i => decide (i < w.vl) && s.elemWrites pkg w i))))

/-- Whether a copy still owes writes to a package: until its completion words are written (21 R388). -/
def State.copyWritesTo (s : State) (tid pkg : Nat) (c : Copy) : Bool :=
  c.tid == tid && c.lines.any (fun l => s.copyPkg c l == some pkg)

/-- What a thread has released, and its copies, for a package have left it (21 R388). -/
def State.releasedLeft (s : State) (t : Thread) (pkg : Nat) : Bool :=
  (t.st.flatten ++ t.gq.flatten).all (fun h => h.far.all (fun p => p.1 != pkg))
    && (s.cluster t.cluster).copies.all (fun c => !s.copyWritesTo t.tid pkg c)

/-- Every earlier write of the thread to a package has left (21 R388). -/
def State.leftFor (s : State) (pkg : Nat) : Bool :=
  s.releasedLeft s.me pkg && s.me.openEntries.all (fun p => !s.entryWrites pkg p.1 p.2)

/-- Channel N of the thread in focus (21 R386). -/
def State.channel (s : State) (n : Nat) : Option Sender :=
  s.fab.senders.find? (fun c => c.tid == s.me.tid && c.slot == n && c.opened)

def State.withSender (s : State) (chan : Nat) (f : Sender → Sender) : State :=
  { s with fab := { s.fab with senders := s.fab.senders.map (fun c => if c.chan == chan then f c else c) } }

/-- Free a sender entry; after a short or lost close its identifier rests for 4 x FTO (21 R386). -/
def State.freeSender (s : State) (chan : Nat) (rest : Nat) : State :=
  { s with fab := { s.fab with
      senders := s.fab.senders.filter (fun c => c.chan != chan)
      freed := if rest = 0 then s.fab.freed else s.fab.freed ++ [(chan, s.time + rest)] } }

/-- FTO of a thread, as an engine sees it. -/
def State.ftoOf (s : State) (tid : Nat) : Nat := ((s.thread tid).map (fun t => t.fto.toNat)).getD 0

/-- The next free channel identifier, round-robin (21 R386). -/
def State.freeChan (s : State) : Option Nat :=
  ((List.range 65536).map (fun i => (s.fab.nextChan + i) % 65536)).find? (fun n =>
    s.fab.senders.all (fun c => c.chan != n) && s.fab.freed.all (fun f => f.1 != n || decide (f.2 ≤ s.time)))

/-- The answer of a refused form of 21 R387 and R388. -/
def refusal (reason : Nat) : Word := BitVec.ofNat 64 (2 ^ 62 + reason * 2 ^ 16)

/-- bcnopen (21 R387): the request leaves once; the thread waits for the reply at the instruction. -/
def execBcnopen (d a : XReg) (s : State) : Out :=
  let p := (s.getX a).toNat
  let mine := s.fab.senders.filter (fun c => c.tid == s.me.tid)
  match s.me.ask with
  | .answered st => finish { s with me := { s.me with ask := .none } } d st
  | .openChan _ _ => stall s
  | _ =>
    if 2 ^ 12 ≤ p ∨ p = s.pkgnum.toNat ∨ !routeV (s.route p) then finish s d (refusal 1)
    else if 16 ≤ mine.length then finish s d (refusal 2)
    else if mine.any (fun c => c.pkg == p) then finish s d (refusal 3)
    else
      match (List.range 16).find? (fun n => mine.all (fun c => c.slot != n)), s.freeChan with
      | some slot, some chan =>
        let s' := { s with
          fab := { s.fab with nextChan := (chan + 1) % 65536, senders := s.fab.senders ++ [(⟨chan, s.me.tid, slot, p, 0, false, [], none, false⟩ : Sender)] }
          me := { s.me with ask := .openChan chan s.time } }
        stall (s'.sendOrLose p (.openReq chan))
      | _, _ => finish s d (refusal 4)

/-- beacon (21 R388): checks in their order, then the flag once earlier writes to the destination have left. -/
def execBeacon (d a b : XReg) (n : BitVec 4) (off : BitVec 15) (s : State) : Out :=
  let ea := s.getX a + off.signExtend 64
  match s.channel n.toNat with
  | none => finish s d (refusal 1)
  | some c =>
    if ea.toNat % 16 ≠ 0 then trapA s cMisaligned (detailOf .store (s.peekRemote s.env ea)) ea
    else
      match s.translate s.env .store none ea with
      | .error bad => trapA s bad.code bad.detail ea
      | .ok x =>
        match x.place with
        | .far pkg addr =>
          if !routeV (s.route pkg) then trapA s cAccess (detailOf .store true) ea
          else if pkg ≠ c.pkg then finish s d (refusal 2)
          else if !s.leftFor pkg || decide (4 ≤ c.flags.length) then stall s
          else
            let s' := (s.sendOrLose pkg (.flag c.chan addr (s.getX b) c.sent s.me.bto.toNat)).withSender c.chan
              (fun c => { c with flags := c.flags ++ [(c.sent, s.time)] })
            finish s' d (c.sent.setWidth 64)
        | _ => trapA s cAccess (detailOf .store false) ea

/-- bcnclose (21 R392). -/
def execBcnclose (d : XReg) (n : BitVec 4) (s : State) : Out :=
  match s.me.ask with
  | .answered st => finish { s with me := { s.me with ask := .none } } d st
  | .closeChan _ _ => stall s
  | _ =>
    match s.channel n.toNat with
    | none => finish s d 3
    | some c =>
      match c.closing with
      | some t => stall { s with me := { s.me with ask := .closeChan c.chan t } }
      | none =>
        if !s.leftFor c.pkg || !c.flags.isEmpty then stall s
        else
          let s' := (s.sendOrLose c.pkg (.close c.chan c.sent s.me.bto.toNat)).withSender c.chan (fun c => { c with closing := some s.time })
          stall { s' with me := { s'.me with ask := .closeChan c.chan s.time } }

/-- Whether the channel of a thread that has gone can be closed (21 R392): its open is unanswered, or what the thread left behind for the package has left
and no flag is outstanding. -/
def State.closable (s : State) (c : Sender) : Bool :=
  c.gone && c.closing.isNone &&
    (!c.opened || (c.flags.isEmpty && (match s.thread c.tid with | some t => s.releasedLeft t c.pkg | none => true)))

/-- The close of a channel whose thread has gone, sent by the package (15 R287, R293, 21 R392; log 27). -/
def closeGone (c : Sender) (s : State) : State :=
  let bto := ((s.thread c.tid).map (fun t => t.bto.toNat)).getD 0
  (s.sendOrLose c.pkg (.close c.chan (if c.opened then c.sent else 0) bto)).withSender c.chan (fun c => { c with closing := some s.time })

/-- Sizes and kinds of reduction types (21 R395). -/
def RTy.bytes : RTy → Nat
  | .i32 | .n32 | .f32 => 4
  | .i64 | .n64 => 8
  | .bf16 | .f16 => 2

def RTy.float : RTy → Option Fmt
  | .f32 => some .fp32
  | .bf16 => some .bf16
  | .f16 => some .fp16
  | _ => none

/-- An integer reduction (21 R396). -/
def intReduce (op : ROp) (ty : RTy) (old v : Nat) : Nat :=
  let w := 8 * RTy.bytes ty
  let sg (n : Nat) : Int := if ty = .i32 ∨ ty = .i64 then (BitVec.ofNat w n).toInt else (n : Int)
  match op with
  | .add => (old + v) % 2 ^ w
  | .min => if sg v < sg old then v else old
  | .max => if sg old < sg v then v else old
  | .and => old &&& v
  | .or => old ||| v
  | .xor => old ^^^ v

/-- Add a value to an accumulator (21 R396). -/
def Sum.add (e : Sum) (v : FVal) : Sum :=
  match v with
  | .nan _ => { e with nan := true }
  | .inf neg => if neg then { e with ninf := true } else { e with pinf := true }
  | .fin neg m x => { e with total := e.total + signed neg (m * 2 ^ (x + 160).toNat) }

/-- The value an accumulator gives memory (21 R396). -/
def Sum.bits (e : Sum) (f : Fmt) : Nat :=
  let l := layoutOf f
  if e.nan || (e.pinf && e.ninf) then l.nanBits
  else if e.pinf then l.infBits
  else if e.ninf then withSign l true l.infBits
  else (l.round .rne false (decide (e.total < 0)) e.total.natAbs (-160)).bits

/-- The window a reduction lies in (21 R394). -/
def State.windowFor (s : State) (addr : Nat) (ty : RTy) : Bool :=
  s.fab.windows.toList.any (fun w => w.en && w.ty == ty && decide (w.base ≤ addr ∧ addr + RTy.bytes ty ≤ w.base + w.size))

/-- A reduction at its home (21 R394, R396): without a window it is dropped and counted; a poisoned element keeps its poison. -/
def State.reduceAt (s : State) (addr : Nat) (op : ROp) (ty : RTy) (v : Word) : State :=
  let n := RTy.bytes ty
  if s.spot addr != .hbm || !s.windowFor addr ty then { s with fab := { s.fab with rdrop := satInc s.fab.rdrop } }
  else if (s.mem.poisonAt addr n).isSome then s
  else
    let val := v.toNat % 2 ^ (8 * n)
    let old := s.mem.number addr n
    match RTy.float ty with
    | none => { s with mem := s.mem.perform none none (wholeBytes addr (leBytes n (intReduce op ty old val))) }
    | some f =>
      let fresh : Sum := ⟨addr, n, 0, false, false, false⟩
      let acc := match s.mem.sums.find? (fun e => e.addr == addr && e.size == n) with
        | some e => e
        | none => fresh.add ((layoutOf f).decode old)
      let acc := acc.add ((layoutOf f).decode val)
      let m := s.mem.perform none none (wholeBytes addr (leBytes n (acc.bits f)))
      { s with mem := { m with sums := m.sums ++ [acc] } }

/-- rred (21 R395): the checks of 03 R72 with R and W, then one reduction, here or as a packet. -/
def execRred (op : ROp) (ty : RTy) (a b : XReg) (off : Imm19) (s : State) : Out :=
  let ea := s.getX a + imm19 off
  match s.checkAccess .atomic ea (RTy.bytes ty) with
  | .error bad => trapA s bad.code bad.detail ea
  | .ok x =>
    if windowRegion ≤ ea.toNat then trapA s cAccess (detailOf .atomic false) ea
    else
      match x.place with
      | .near h => .next (s.reduceAt h op ty (s.getX b)).bump
      | .cap _ => trapA s cAccess (detailOf .atomic false) ea
      | .far pkg addr => .next (s.sendMine pkg (fun c => .red s.me.tid s.me.ep c addr op ty (s.getX b))).bump

/-- Whether a span of local physical addresses is HBM that programs may use: its first and last byte and one of every 256 MiB. -/
def State.allHbm (s : State) (base size : Nat) : Bool :=
  (base :: (base + size - 1) :: (List.range (size / 2 ^ 28)).map (fun k => base + k * 2 ^ 28)).all (fun a => s.spot a == .hbm)

/-- Type codes of 21 R395. -/
def rtyOf (n : Nat) : Option RTy := [RTy.i32, .n32, .i64, .n64, .f32, .bf16, .f16][n]?

/-- What rwset answers (21 R394); an operand that is not of its form gives 1. -/
def State.rwsetStatus (s : State) (n : Nat) (a b : Word) : Nat :=
  let base := a.toNat
  let size := (b.extractLsb' 0 32).toNat
  let en := b.getLsbD 35
  let others := ((List.range 16).zip s.fab.windows.toList).filter (fun p => p.1 != n && p.2.en)
  let meets := others.any (fun p => decide (base < p.2.base + p.2.size ∧ p.2.base < base + size))
  let total := (others.map (fun p => p.2.size)).sum + size
  if base % 4096 ≠ 0 ∨ size % 4096 ≠ 0 ∨ b.extractLsb' 36 28 ≠ 0 ∨ !s.allHbm base size then 1
  else if en && (meets || decide (2 ^ 23 < total)) then 1
  else if (b.extractLsb' 32 3) = 7 then 2
  else 0

/-- rwset (21 R394). -/
def rwsetNow (d : XReg) (n : BitVec 4) (a b : XReg) (s : State) : Out :=
  let base := (s.getX a).toNat
  let w := s.getX b
  if s.fab.inbox.any (fun p => match p.2 with | .red _ _ _ _ _ _ _ => true | _ => false) then stall s
  else
    let st := s.rwsetStatus n.toNat (s.getX a) w
    if st ≠ 0 then finish s d (BitVec.ofNat 64 st)
    else
      let old := s.fab.windows[n.toNat]
      let inside (x : RWindow) (e : Sum) : Bool := decide (x.base ≤ e.addr ∧ e.addr < x.base + x.size)
      let new : RWindow := ⟨base, (w.extractLsb' 0 32).toNat, (rtyOf (w.extractLsb' 32 3).toNat).getD .i32, w.getLsbD 35⟩
      let s' := { s with
        fab := { s.fab with windows := s.fab.windows.set n.toNat new }
        mem := { s.mem with sums := s.mem.sums.filter (fun e => !inside old e && !inside new e) } }
      finish s' d 0

def execRwset (d : XReg) (n : BitVec 4) (a b : XReg) (s : State) : Out := supervisorOnly s (rwsetNow d n a b)

/-- Write an entry of the route map, kept rising by package; a zero entry is the entry's absence (21 R378). -/
def routeSet (pkg : Nat) (w : Word) (l : List (Nat × Word)) : List (Nat × Word) :=
  let rest := l.filter (fun r => r.1 != pkg)
  if w = 0 then rest else rest.filter (fun r => decide (r.1 < pkg)) ++ (pkg, w) :: rest.filter (fun r => decide (pkg < r.1))

/-- fmap (21 R378, R397). -/
def fmapNow (a b : XReg) (s : State) : Out :=
  let i := (s.getX a).toNat
  let w := s.getX b
  let fab :=
    if i < 0x1000 then { s.fab with routes := routeSet i (w &&& 0xC00000000000FFFF) s.fab.routes }
    else if i = 0x1000 then { s.fab with prefixes := w }
    else if i = 0x1001 ∧ w.toNat < 2 ^ 16 ∧ (w.extractLsb' 0 4).toNat ≤ 3 ∧ (w.extractLsb' 4 4).toNat ≤ 3 then { s.fab with podcfg := w }
    else s.fab
  .next ({ s with fab := fab }).bump

def execFmap (a b : XReg) (s : State) : Out := supervisorOnly s (fmapNow a b)

/-- Take a packet from the inbox. -/
def State.take (s : State) (idx : Nat) : Option (Nat × Packet × State) :=
  match s.fab.inbox[idx]? with
  | some (src, p) => some (src, p, { s with fab := { s.fab with inbox := dropAt s.fab.inbox idx } })
  | none => none

/-- Serial order of counts (21 R390): n has been reached. -/
def reached (arr n : BitVec 32) : Bool := decide ((arr - n).toNat < 2 ^ 31)

/-- The flag of 21 R389 as a number. -/
def flagNumber (src st miss : Nat) (f : HeldFlag) : Nat :=
  f.val.toNat + f.count.toNat * 2 ^ 64 + min miss 16383 * 2 ^ 96 + st * 2 ^ 110 + src * 2 ^ 112

/-- Write a flag and report it (21 R388, R389): one outside the owner's HBM is discarded (R381). -/
def State.writeFlag (s : State) (src chan st miss : Nat) (f : HeldFlag) : State :=
  let m := if s.spot f.addr == .hbm && s.spot (f.addr + 15) == .hbm then
      s.mem.perform none none (wholeBytes f.addr (leBytes 16 (flagNumber src st miss f)))
    else s.mem
  ({ s with mem := m }).sendOrLose src (.flagReport chan f.count)

/-- Change an entry of the receiver table. -/
def State.withReceiver (s : State) (src chan : Nat) (f : Receiver → Receiver) : State :=
  { s with fab := { s.fab with receivers := s.fab.receivers.map (fun r => if r.src == src && r.chan == chan then f r else r) } }

/-- Write the flags of a channel that ARR has reached, in serial order (21 R390); what stays held. -/
def State.writeReached (s : State) (src chan : Nat) (arr : BitVec 32) : List HeldFlag → State × List HeldFlag
  | [] => (s, [])
  | f :: r => if reached arr f.count then (s.writeFlag src chan 0 0 f).writeReached src chan arr r else (s, f :: r)

/-- A held flag in serial order among the others. -/
def holdFlag (f : HeldFlag) : List HeldFlag → List HeldFlag
  | [] => [f]
  | o :: r => if f.count ≠ o.count ∧ reached o.count f.count then f :: o :: r else o :: holdFlag f r

/-- Free a receiver entry and reply to its close (21 R392): flags still held are written SHORT first. -/
def State.freeReceiver (s : State) (r : Receiver) (sent : BitVec 32) : State :=
  let s' := r.flags.foldl (fun s f => s.writeFlag r.src r.chan 1 (f.count - r.arr).toNat f) s
  ({ s' with fab := { s'.fab with receivers := s'.fab.receivers.filter (fun x => !(x.src == r.src && x.chan == r.chan)) } }).sendOrLose
    r.src (.closeReply r.chan (if reached r.arr sent then 0 else sent - r.arr))

/-- What the receiver of a channel does once ARR has changed, or a flag or close has come (21 R390, R392). -/
def State.settleChannel (s : State) (src chan : Nat) : State :=
  match s.fab.receivers.find? (fun r => r.src == src && r.chan == chan) with
  | none => s
  | some r =>
    let (s', left) := s.writeReached src chan r.arr r.flags
    let r' := { r with flags := left }
    let s'' := s'.withReceiver src chan (fun _ => r')
    match r.close with
    | some (sent, _, _) => if reached r.arr sent then s''.freeReceiver r' sent else s''
    | none => s''

def sweepCount (l : List SweepCount) (src tid ep : Nat) : Nat :=
  ((l.find? (fun c => c.src == src && c.tid == tid && c.ep == ep)).map (·.count)).getD 0

/-- Echo the markers whose packets have been performed (21 R393). -/
def State.settleMarkers (s : State) : State :=
  let done (m : Marker) : Bool := decide (m.count ≤ sweepCount s.fab.counts m.src m.tid m.ep)
  (s.fab.markers.filter done).foldl (fun s m => s.sendOrLose m.src (.echo m.tid m.ep m.count 0))
    { s with fab := { s.fab with markers := s.fab.markers.filter (fun m => !done m) } }

/-- A counted packet has been performed at its home (21 R386, R393). -/
def State.countArrival (s : State) (src tid ep : Nat) (chan : Option Nat) : State :=
  let n := sweepCount s.fab.counts src tid ep
  let counts := s.fab.counts.filter (fun c => !(c.src == src && c.tid == tid && c.ep == ep)) ++ [⟨src, tid, ep, n + 1⟩]
  let receivers := s.fab.receivers.map (fun r => if r.src == src && chan == some r.chan then { r with arr := r.arr + 1 } else r)
  let s := { s with fab := { s.fab with counts := counts, receivers := receivers } }
  (match chan with | some c => s.settleChannel src c | none => s).settleMarkers

/-- REMOTE_WRITE_PERFORM (21 R381): bytes outside the owner's HBM are discarded; the packet counts. -/
def performRemote (idx : Nat) (s : State) : State :=
  match s.take idx with
  | some (src, .write tid ep chan bytes poison, s') =>
    let mine (a : Nat) : Bool := s.spot a == .hbm
    let m := (s'.mem.perform none none (bytes.filter (fun b => mine b.addr))).setPoison (poison.filter (fun w => mine (8 * w)))
    ({ s' with mem := m }).countArrival src tid ep chan
  | _ => s

def execRemoteWritePerform (idx : Nat) (s : State) : Out := .next (performRemote idx s)

/-- REDUCTION_ARRIVE (21 R394, R396). -/
def reduceRemote (idx : Nat) (s : State) : State :=
  match s.take idx with
  | some (src, .red tid ep chan addr op ty v, s') => (s'.reduceAt addr op ty v).countArrival src tid ep chan
  | _ => s

def execReductionArrive (idx : Nat) (s : State) : Out := .next (reduceRemote idx s)

/-- The bytes of a span with their poison, as the owner reads them for another package (21 R381): none where one lies outside HBM. -/
def State.served1 (s : State) (addr size : Nat) : Option (List (Byte × Bool)) :=
  if (List.range size).all (fun i => s.spot (addr + i) == .hbm) then
    some ((List.range size).map (fun i => (s.mem.byte (addr + i), (s.mem.poisonAt (addr + i) 1).isSome)))
  else none

/-- REMOTE_LOAD_REQUEST (21 R381): read at the home; an address outside HBM is denied. The replies leave in packets of 240 bytes (R376). -/
def serveLoad (idx : Nat) (s : State) : State :=
  match s.take idx with
  | some (src, .loadReq items, s') =>
    (replyPackets items.length (items.map (fun i => (i.1, s.served1 i.2.1 i.2.2)))).foldl (fun s r => s.sendOrLose src (.loadReply r)) s'
  | _ => s

def execRemoteLoadRequest (idx : Nat) (s : State) : Out := .next (serveLoad idx s)

/-- Record what became of remote loads. -/
def markLoads (f : RemoteLoad → Bool) (r : Reply) (l : List RemoteLoad) : List RemoteLoad :=
  l.map (fun x => if f x && x.reply == .none then { x with reply := r } else x)

/-- REMOTE_LOAD_REPLY (21 R384): to the thread or the copy that asked. -/
def landReply (idx : Nat) (s : State) : State :=
  match s.take idx with
  | some (src, .loadReply items, s') =>
    let mark (l : List RemoteLoad) : List RemoteLoad := items.foldl (fun l i =>
      markLoads (fun x => x.ser == i.1 && x.pkg == src) (match i.2 with | some d => .data d | none => .denied) l) l
    let s1 := s'.mapThreads (fun (t : Thread) => { t with remote := mark t.remote })
    let s2 : State := { s1 with clusters := s1.clusters.map (fun (c : Cluster) => { c with copies := c.copies.map (fun (x : Copy) => { x with remote := mark x.remote }) }) }
    s2
  | _ => s

def execRemoteLoadReply (idx : Nat) (s : State) : Out := .next (landReply idx s)

/-- The earliest of some times. -/
def earliest : List Nat → Option Nat
  | [] => none
  | a :: r => match earliest r with | some b => some (min a b) | none => some a

/-- REMOTE_LOAD_TIMEOUT (21 R384): FTO has passed for the thread's oldest request without a reply. -/
def loadTimeout (tid : Nat) (s : State) : State :=
  match s.thread tid with
  | none => s
  | some t =>
    match earliest ((t.remote.filter (fun r => r.reply == .none)).map (fun r => r.sent + t.fto.toNat)) with
    | none => s
    | some due =>
      let now := max s.time due
      (s.tick now).withFocus tid (fun s =>
        { s with me := { s.me with remote := markLoads (fun r => decide (r.sent + s.me.fto.toNat ≤ now)) .lost s.me.remote } })

def execRemoteLoadTimeout (tid : Nat) (s : State) : Out := .next (loadTimeout tid s)

/-- The answer to a thread that waits at bcnopen or bcnclose for a channel. -/
def State.answer (s : State) (tid chan : Nat) (st : Word) : State :=
  s.withThread tid (fun t =>
    match t.ask with
    | .openChan c _ => if c = chan then { t with ask := .answered st } else t
    | .closeChan c _ => if c = chan then { t with ask := .answered st } else t
    | _ => t)

/-- BEACON_OPEN_REQUEST (21 R387). -/
def openRequest (idx : Nat) (s : State) : State :=
  match s.take idx with
  | some (src, .openReq chan, s') =>
    let rest := s'.fab.receivers.filter (fun r => !(r.src == src && r.chan == chan))
    if 16384 ≤ rest.length then s'.sendOrLose src (.openReply chan false)
    else ({ s' with fab := { s'.fab with receivers := rest ++ [(⟨src, chan, 0, [], none⟩ : Receiver)] } }).sendOrLose src (.openReply chan true)
  | _ => s

def execBeaconOpenRequest (idx : Nat) (s : State) : Out := .next (openRequest idx s)

/-- BEACON_OPEN_REPLY (21 R387). -/
def openReplied (idx : Nat) (s : State) : State :=
  match s.take idx with
  | some (src, .openReply chan ok, s') =>
    match s'.fab.senders.find? (fun c => c.chan == chan && c.pkg == src && !c.opened) with
    | none => s'
    | some c =>
      if ok then (s'.withSender chan (fun c => { c with opened := true, sent := 0 })).answer c.tid chan (BitVec.ofNat 64 c.slot)
      else (s'.freeSender chan 0).answer c.tid chan (refusal 5)
  | _ => s

def execBeaconOpenReply (idx : Nat) (s : State) : Out := .next (openReplied idx s)

/-- BEACON_OPEN_TIMEOUT (21 R387): the open is refused; the receiver is told, should it hold an entry. -/
def openTimeout (tid : Nat) (s : State) : State :=
  match s.thread tid with
  | some t =>
    match t.ask with
    | .openChan chan sent =>
      let s1 := s.tick (sent + t.fto.toNat)
      let s2 := match s.fab.senders.find? (fun c => c.chan == chan) with
        | some c => s1.sendOrLose c.pkg (.close chan 0 t.bto.toNat)
        | none => s1
      (s2.freeSender chan (4 * t.fto.toNat)).answer tid chan (refusal 6)
    | _ => s
  | none => s

def execBeaconOpenTimeout (tid : Nat) (s : State) : Out := .next (openTimeout tid s)

/-- BEACON_FLAG_ARRIVE (21 R386, R390). -/
def flagArrives (idx : Nat) (s : State) : State :=
  match s.take idx with
  | some (src, .flag chan addr val count bto, s') =>
    let f : HeldFlag := ⟨addr, val, count, bto, s.time⟩
    if s'.fab.receivers.any (fun r => r.src == src && r.chan == chan) then
      (s'.withReceiver src chan (fun r => { r with flags := holdFlag f r.flags })).settleChannel src chan
    else s'.writeFlag src chan 2 0 f
  | _ => s

def execBeaconFlagArrive (idx : Nat) (s : State) : Out := .next (flagArrives idx s)

/-- BEACON_FLAG_SHORT (21 R390): BTO passes for the first flag a receiver entry holds. -/
def flagShort (idx : Nat) (s : State) : State :=
  match s.fab.receivers[idx]? with
  | none => s
  | some r =>
    match r.flags with
    | [] => s
    | f :: rest =>
      let s1 := (s.tick (f.arrived + f.bto)).withReceiver r.src r.chan (fun x => { x with flags := rest })
      (s1.writeFlag r.src r.chan 1 (f.count - r.arr).toNat f).settleChannel r.src r.chan

def execBeaconFlagShort (idx : Nat) (s : State) : Out := .next (flagShort idx s)

/-- BEACON_FLAG_REPORT (21 R388). -/
def flagReported (idx : Nat) (s : State) : State :=
  match s.take idx with
  | some (src, .flagReport chan count, s') =>
    s'.withSender chan (fun c =>
      if c.pkg = src then
        { c with flags := match c.flags.find? (fun f => f.1 == count) with | some f => c.flags.erase f | none => c.flags }
      else c)
  | _ => s

def execBeaconFlagReport (idx : Nat) (s : State) : Out := .next (flagReported idx s)

/-- FLAG_OUTSTANDING_EXPIRY (21 R388): FTO after it was sent the oldest flag of a channel stops being outstanding. -/
def flagExpires (chan : Nat) (s : State) : State :=
  match s.fab.senders.find? (fun c => c.chan == chan) with
  | some c =>
    match c.flags with
    | [] => s
    | f :: rest => (s.tick (f.2 + s.ftoOf c.tid)).withSender chan (fun c => { c with flags := rest })
  | none => s

def execFlagOutstandingExpiry (chan : Nat) (s : State) : Out := .next (flagExpires chan s)

/-- BEACON_CLOSE_REQUEST (21 R392): a close for no entry is answered at once as complete. -/
def closeRequest (idx : Nat) (s : State) : State :=
  match s.take idx with
  | some (src, .close chan sent bto, s') =>
    if s'.fab.receivers.any (fun r => r.src == src && r.chan == chan) then
      (s'.withReceiver src chan (fun r => { r with close := some (sent, bto, s.time) })).settleChannel src chan
    else s'.sendOrLose src (.closeReply chan 0)
  | _ => s

def execBeaconCloseRequest (idx : Nat) (s : State) : Out := .next (closeRequest idx s)

/-- BEACON_CLOSE_BTO (21 R392): the entry is freed short. -/
def closeShort (idx : Nat) (s : State) : State :=
  match s.fab.receivers[idx]? with
  | none => s
  | some r =>
    match r.close with
    | none => s
    | some (sent, bto, arrived) => (s.tick (arrived + bto)).freeReceiver r sent

def execBeaconCloseBto (idx : Nat) (s : State) : Out := .next (closeShort idx s)

/-- BEACON_CLOSE_REPLY (21 R392). -/
def closeReplied (idx : Nat) (s : State) : State :=
  match s.take idx with
  | some (src, .closeReply chan miss, s') =>
    match s'.fab.senders.find? (fun c => c.chan == chan && c.pkg == src && c.closing.isSome) with
    | none => s'
    | some c =>
      let st : Word := if miss = 0 then 0 else BitVec.ofNat 64 (2 + min miss.toNat 16383 * 2 ^ 16)
      (s'.freeSender chan (if miss = 0 then 0 else 4 * s.ftoOf c.tid)).answer c.tid chan st
  | _ => s

def execBeaconCloseReply (idx : Nat) (s : State) : Out := .next (closeReplied idx s)

/-- BEACON_CLOSE_TIMEOUT (21 R392): no reply within FTO to the oldest close of a thread. -/
def closeTimeout (tid : Nat) (s : State) : State :=
  match s.fab.senders.find? (fun c => c.tid == tid && c.closing.isSome) with
  | none => s
  | some c =>
    let s1 := s.tick (c.closing.getD 0 + s.ftoOf tid)
    (s1.freeSender c.chan (4 * s.ftoOf tid)).answer tid c.chan 1

def execBeaconCloseTimeout (tid : Nat) (s : State) : Out := .next (closeTimeout tid s)

/-- SWEEP_MARKER_ARRIVE (21 R393). -/
def markerArrives (idx : Nat) (s : State) : State :=
  match s.take idx with
  | some (src, .marker tid ep count bto, s') =>
    ({ s' with fab := { s'.fab with markers := s'.fab.markers ++ [(⟨src, tid, ep, count, bto, s.time⟩ : Marker)] } }).settleMarkers
  | _ => s

def execSweepMarkerArrive (idx : Nat) (s : State) : Out := .next (markerArrives idx s)

/-- SWEEP_MARKER_SHORT (21 R393): BTO passes after a marker arrived. -/
def markerShort (idx : Nat) (s : State) : State :=
  match s.fab.markers[idx]? with
  | none => s
  | some m =>
    ({ s.tick (m.arrived + m.bto) with
      fab := { s.fab with markers := dropAt s.fab.markers idx } }).sendOrLose m.src
        (.echo m.tid m.ep m.count (m.count - sweepCount s.fab.counts m.src m.tid m.ep))

def execSweepMarkerShort (idx : Nat) (s : State) : Out := .next (markerShort idx s)

/-- SWEEP_ECHO (21 R393): for the sweep that the thread waits in. -/
def echoArrives (idx : Nat) (s : State) : State :=
  match s.take idx with
  | some (src, .echo tid ep count miss, s') =>
    s'.withThread tid (fun t =>
      match t.ask with
      | .sweeping sent left bad =>
        if t.ep = ep ∧ left.contains src ∧ t.sweep.contains (src, count) then
          { t with ask := .sweeping sent (left.erase src) (if miss = 0 then bad else bad ++ [(src, 2)]) }
        else t
      | _ => t)
  | _ => s

def execSweepEcho (idx : Nat) (s : State) : Out := .next (echoArrives idx s)

/-- SWEEP_TIMEOUT (21 R393): packages without an echo within FTO count as lost. -/
def sweepTimeout (tid : Nat) (s : State) : State :=
  match s.thread tid with
  | some t =>
    match t.ask with
    | .sweeping sent left bad =>
      (s.tick (sent + t.fto.toNat)).withThread tid (fun t =>
        { t with ask := .sweeping sent [] (bad ++ left.map (fun p => (p, 1))) })
    | _ => s
  | none => s

def execSweepTimeout (tid : Nat) (s : State) : Out := .next (sweepTimeout tid s)

/-- Change one link, or one port. -/
def State.withLink (s : State) (n : Nat) (f : Link → Link) : State :=
  if h : n < 32 then { s with fab := { s.fab with links := s.fab.links.set n (f s.fab.links[n]) } } else s

def State.withPort (s : State) (n : Nat) (f : Port → Port) : State :=
  if h : n < 10 then { s with fab := { s.fab with ports := s.fab.ports.set n (f s.fab.ports[n]) } } else s

def sat16 (n : BitVec 16) : BitVec 16 := if n = BitVec.allOnes 16 then n else n + 1

/-- A packet that came in on a link: one for this package waits in the inbox; one for another goes on (21 R379). -/
def State.accepted (s : State) (link src dst : Nat) (p : Packet) : State :=
  if dst = s.pkgnum.toNat then { s with fab := { s.fab with inbox := s.fab.inbox ++ [(src, p)] } }
  else (s.sendFrom (some (link / 4)) src dst p).getD s

/-- FLIT_RECEIVE (21 R376): the flit expected is delivered once; one that has been delivered is dropped; any other, and one that fails
its check, is discarded with a NAK that names the flit expected. No flit carries more than its 240 bytes. -/
def flitIn (link : Nat) (seq : BitVec 16) (good : Bool) (src dst : Nat) (p : Packet) (s : State) : State :=
  match s.fab.links[link]? with
  | none => s
  | some l =>
    if l.state ≠ 2 || !packetFits p then s
    else if good && seq == l.expect then (s.withLink link (fun l => { l with expect := l.expect + 1, nak := none })).accepted link src dst p
    else if good && decide ((l.expect - seq).toNat < 2 ^ 15) then s
    else s.withLink link (fun l => { l with nak := some l.expect })

def execFlitReceive (link : Nat) (seq : BitVec 16) (good : Bool) (src dst : Nat) (p : Packet) (s : State) : Out :=
  .next (flitIn link seq good src dst p s)

/-- NAK_RECEIVE (21 R376): the ring is sent again from the flit named; a flit older than the ring makes the link retrain. -/
def nakIn (link : Nat) (seq : BitVec 16) (s : State) : State :=
  match s.fab.links[link]? with
  | none => s
  | some l =>
    let s := s.withLink link (fun l => { l with naks := sat16 l.naks })
    if l.ring.any (fun f => f.1 == seq) then
      let again := (l.ring.takeWhile (fun f => f.1 != seq)).reverse
      let named := (l.ring.find? (fun f => f.1 == seq)).toList
      { s with fab := { s.fab with outbox := s.fab.outbox ++ (named ++ again).map (fun f => f.2) } }
    else if seq = l.nextSeq then s
    else s.withLink link (fun l => { l with rtrn := sat16 l.rtrn, lossy := true, state := 1 })

def execNakReceive (link : Nat) (seq : BitVec 16) (s : State) : Out := .next (nakIn link seq s)

/-- LINK_TRAINED (21 R377): a scale-up link (0 to 31) that is not fenced (19 R346), or a scale-out port (32 to 41) comes up; numbering starts again. -/
def trained (link : Nat) (s : State) : State :=
  if link < 32 then
    if s.fab.fenced.getLsbD link then s else s.withLink link (fun l => { l with state := 2, insvc := true, nextSeq := 0, ring := [], expect := 0, nak := none })
  else s.withPort (link - 32) (fun p => { p with up := true })

def execLinkTrained (link : Nat) (s : State) : Out := .next (trained link s)

/-- LINK_OUT_OF_SERVICE (21 R377). -/
def linkDown (scaleOut : Bool) (n : Nat) (s : State) : State :=
  if scaleOut then s.withPort n (fun p => { p with up := false })
  else s.withLink n (fun l => { l with state := 0, insvc := false })

def execLinkOutOfService (scaleOut : Bool) (n : Nat) (s : State) : Out := .next (linkDown scaleOut n s)

/-- DATAGRAM_RECEIVE (21 R380): one that fails its checks counts in DROP. -/
def datagramIn (port : Nat) (good : Bool) (src : Nat) (p : Packet) (s : State) : State :=
  match s.fab.ports[port]? with
  | none => s
  | some x =>
    if !x.up || !packetFits p then s
    else if good then { s with fab := { s.fab with inbox := s.fab.inbox ++ [(src, p)] } }
    else s.withPort port (fun x => { x with drop := satInc x.drop })

def execDatagramReceive (port : Nat) (good : Bool) (src : Nat) (p : Packet) (s : State) : Out := .next (datagramIn port good src p s)

end Sys2Proof.Machine
end

