-- ==== Sys2Proof/Machine/Power.lean ====
section
/-!
DEFINITION. Clock, power, heat and errors (19 R329 to R347): flash frames, sensors, energy, firmware power control, the slack governor,
lanterns, scrubbing, error counters.
-/
namespace Sys2Proof.Machine

/-- FLASH_FRAME (19 R331): the next frame begins, for every cluster; `cl` says which cluster the event was seen at. -/
def frame (_cl : Nat) (s : State) : State := s.tick ((s.time / 16 + 1) * 16)

def execFlashFrame (cl : Nat) (s : State) : Out := .next (frame cl s)

/-- Whether a die has a sensor of a number (19 R336): 64 on each compute layer, 16 on each SRAM die (dies 8 to 11). -/
def isSensor (die sensor : Nat) : Bool := decide ((die < 8 ∧ sensor < 64) ∨ (8 ≤ die ∧ die < 12 ∧ sensor < 16))

/-- Whether every SRAM-die sensor reads below 100 degrees (19 R340). -/
def State.cool (s : State) : Bool :=
  (List.range 64).all (fun i => s.power.sensors.any (fun x => x.1 == 8 + i / 16 && x.2.1 == i % 16 && decide (x.2.2.toInt < 1600)))

/-- SENSOR_SAMPLE (19 R336). While a boot holds the compute layers unpowered their sensors take no sample; once the SRAM dies are cool it goes on
to step 9 (19 R340, 20 R367). -/
def sample (die sensor : Nat) (temp : BitVec 16) (s : State) : State :=
  if isSensor die sensor && (s.host.active || decide (8 ≤ die)) then
    let s := { s with power := { s.power with
      sensors := s.power.sensors.filter (fun (x : Nat × Nat × BitVec 16) => !(x.1 == die && x.2.1 == sensor)) ++ [(die, sensor, temp)] } }
    { s with host := { s.host with active := s.host.active || (s.cool && !s.host.stopped) } }
  else s

def execSensorSample (die sensor : Nat) (temp : BitVec 16) (s : State) : Out := .next (sample die sensor temp s)

/-- A sensor register (19 R336) and TMAX of a die (R337): VALID and TEMP. -/
def State.sensorWord (s : State) (die sensor : Nat) : BitVec 32 :=
  match s.power.sensors.find? (fun x => x.1 == die && x.2.1 == sensor) with
  | some x => 1#1 ++ 0#15 ++ x.2.2
  | none => 0

def State.tmax (s : State) (die : Nat) : BitVec 32 :=
  match (s.power.sensors.filter (fun x => x.1 == die)).map (·.2.2) with
  | [] => 0
  | t :: r => 1#1 ++ 0#15 ++ r.foldl (fun m x => if m.toInt < x.toInt then x else m) t

/-- ENERGY_UPDATE (19 R338): the package accumulator (8) counts every rail, those of the layers (0 to 7) too. -/
def addEnergy (acc delta : Nat) (s : State) : State :=
  let add (n : Nat) (v : Vector Word 9) : Vector Word 9 := if h : n < 9 then v.set n (v[n] + BitVec.ofNat 64 delta) else v
  if acc < 8 then { s with power := { s.power with energy := add 8 (add acc s.power.energy) } }
  else if acc = 8 then { s with power := { s.power with energy := add 8 s.power.energy } }
  else s

def execEnergyUpdate (acc delta : Nat) (s : State) : Out := .next (addEnergy acc delta s)

/-- Rail voltage of a layer (19 R337). -/
def State.setVolt (s : State) (layer : Nat) (f : BitVec 16 → BitVec 16) : State :=
  if h : layer < 8 then { s with power := { s.power with volt := s.power.volt.set layer (f s.power.volt[layer]) } } else s

/-- A compute layer reads above 105 degrees; the mean package power of the 10 ms window so far is above PLIM, in microjoules per 1,750 cycles (19
R335, R338). -/
def State.layerHot (s : State) (layer : Nat) : Bool := s.power.sensors.any (fun x => x.1 == layer && decide (1680 < x.2.2.toInt))
def State.overPower (s : State) : Bool :=
  decide (s.power.plim * (s.time - s.power.winStart) < 1750 * (s.power.energy[8] - s.power.winEnergy).toNat)

/-- POWER_CONTROL (19 R335): to lower, LBCAP first, then FLASHCAP one step once LBCAP is LC, the voltage after; to raise, in the
reverse order, and not while the layer is hot or the package over its limit. LBCAP stays from LC to LC x 4. -/
def control (cl : Nat) (lower : Bool) (lbcap : Nat) (mv : BitVec 16) (s : State) : State :=
  let lc := s.laneCount cl
  let c := s.cluster cl
  let target := max lc (min lbcap (4 * lc))
  if lower then
    let s := if c.lbcap ≠ lc then s.withCluster cl (fun c => { c with lbcap := min c.lbcap target })
      else (s.withCluster cl (fun c => { c with thermal := max 4 (c.thermal - 1) })).setCaps
    s.setVolt (cl / 12) (fun v => if mv.toNat < v.toNat then mv else v)
  else if s.layerHot (cl / 12) || s.overPower then s
  else
    let s := s.setVolt (cl / 12) (fun v => if v.toNat < mv.toNat then mv else v)
    if c.thermal < 16 then (s.withCluster cl (fun c => { c with thermal := c.thermal + 1 })).setCaps
    else s.withCluster cl (fun c => { c with lbcap := max c.lbcap target })

def execPowerControl (cl : Nat) (lower : Bool) (lbcap : Nat) (mv : BitVec 16) (s : State) : Out := .next (control cl lower lbcap mv s)

/-- THERMAL_EMERGENCY (19 R335): a sensor of the layer is at 118 degrees or above. -/
def emergency (layer : Nat) (s : State) : State :=
  if s.power.sensors.any (fun x => x.1 == layer && decide (layer < 8 ∧ 1888 ≤ x.2.2.toInt)) then
    ({ s with clusters := s.clusters.map (fun (c : Cluster) =>
        if c.id / 12 = layer then { c with thermal := 4, lbcap := s.laneCount c.id } else c) }).setCaps
  else s

def execThermalEmergency (layer : Nat) (s : State) : Out := .next (emergency layer s)

/-- SLACK_INTERVAL (19 R342): the end of a 2 ms interval. -/
def slackEnd (s : State) : State := s.tick ((s.time / slackCycles + 1) * slackCycles)

def execSlackInterval (s : State) : Out := .next (slackEnd s)

/-- LBUDGET and LBCAP at their reset value LC x 4 (19 R330). -/
def State.fullBudgets (s : State) : State :=
  { s with clusters := s.clusters.map (fun (c : Cluster) => { c with lbudget := 4 * s.laneCount c.id, lbcap := 4 * s.laneCount c.id }) }

/-- What a loss of power leaves of memory: that of the host (20 R366). -/
def Mem.hostOnly (m : Mem) : Mem :=
  { State.reset.mem with
    bytes := m.bytes.filter (fun c => decide (2 ^ 43 ≤ c.1 ∧ c.1 < 2 ^ 44))
    poison := m.poison.filter (fun w => decide (2 ^ 43 ≤ 8 * w ∧ 8 * w < 2 ^ 44)) }

/-- The package without power (19 R340): everything is lost but the memory of the host, the always-on registers, straps and fuses, the seed in the key
store, the fence records still to be acted on (20 R366, R368), and the schedule of the model itself. -/
def State.lost (s : State) : State :=
  { State.reset with
    mem := s.mem.hostOnly
    pkgnum := s.pkgnum
    power := { Power.atReset with lntstat := s.power.lntstat, lntfirst := s.power.lntfirst, fences := s.power.fences }
    host := { HostSide.atReset with
      build := s.host.build
      minBuild := s.host.minBuild
      nonces := s.host.nonces
      fogstat := s.host.fogstat
      sigfail := s.host.sigfail
      keyErased := s.host.keyErased
      seed := s.host.seed
      signKey := []
      boots := s.host.boots }
    agenda := s.agenda
    lag := s.lag
    pace := s.pace
    fresh := s.fresh }

/-- LANTERN_TRIP (19 R340, R341): bit 8d + k is comparator k of layer d. -/
def trip (comparators : BitVec 64) (s : State) : State :=
  match (List.range 64).find? (fun i => comparators.getLsbD i) with
  | none => s
  | some i =>
    let s' := s.lost
    { s' with
      powered := false
      power := { s'.power with
        lntstat := s.power.lntstat ||| comparators
        lntfirst := if s.power.lntfirst.getLsbD 6 then s.power.lntfirst else BitVec.ofNat 7 (64 + i) } }

def execLanternTrip (comparators : BitVec 64) (s : State) : Out := .next (trip comparators s)

/-- The die a home address lies on (19 R337, R343): SRAM dies 8 to 11 hold HBM, L2 and chiplet scratchpad, the compute layers the rest. -/
def dieOf (h : Nat) : Option Nat :=
  if h < 2 ^ 40 then some (8 + h / 2 ^ 38)
  else if h < sramBase then none
  else if h < clusterSram 0 then some ((h - sramBase) / 2 ^ 20 / 192)
  else if h < chipSram 0 then some ((h - clusterSram 0) / 2 ^ 23 / 12)
  else if h < laneSram 0 0 then some (8 + (h - chipSram 0) / 2 ^ 27)
  else some ((h - laneSram 0 0) / 2 ^ 19 / 192)

/-- Record the first uncorrectable error (19 R343). -/
def State.logError (s : State) (die : Nat) (kind : BitVec 3) (loc : Nat) : State :=
  s.withErrors die (fun e => if e.log.getLsbD 63 then e else { e with log := 1#1 ++ kind ++ 0#4 ++ BitVec.ofNat 56 loc })

/-- An uncorrectable error in a memory word: the word is poisoned (19 R343). -/
def State.poisonWord (s : State) (die : Nat) (kind : BitVec 3) (word : Nat) : State :=
  let s := { s with mem := s.mem.setPoison [word] }
  (s.withErrors die (fun e => { e with uep := satInc e.uep })).logError die kind (8 * word)

/-- The ERRLOG kind of a home address that the scrubber finds bad (19 R343). -/
def kindOf (h : Nat) : BitVec 3 := if h < 2 ^ 40 then 3 else if laneSram 0 0 ≤ h then 4 else 0

/-- The unit an on-package home lies in, as a FENCE record names it (19 R347, 20 R362): HBM channel; core of a scratchpad or of a contribution to cluster
memory; bank; lane. -/
def State.unitOf (s : State) (h : Nat) : Option Nat :=
  let pick (l : List Nat) (a : Nat) : Option Nat := l[a / 128 % l.length]?
  if h < 2 ^ 40 then (s.hbmPlace h).map (fun p => 4 * 2 ^ 32 + p.1 * 128 + p.2.1)
  else if h < sramBase then none
  else if h < clusterSram 0 then some (2 ^ 32 + (h - sramBase) / 2 ^ 20)
  else if h < chipSram 0 then
    let cl := (h - clusterSram 0) / 2 ^ 23
    let dead := ((s.clusters.find? (fun c => c.id == cl)).map (·.deadSram)).getD []
    (pick ((List.range 16).map (fun i => 16 * cl + i) |>.filter (fun c => !dead.contains c)) (h - clusterSram cl)).map (fun c => 2 ^ 32 + c)
  else if h < laneSram 0 0 then
    let chip := (h - chipSram 0) / 2 ^ 27
    let dead := (s.chiplets.toList.getD chip ⟨[], [], []⟩).deadBanks
    (pick ((List.range 64).filter (fun b => !dead.contains b)) (h - chipSram chip)).map (fun b => 3 * 2 ^ 32 + 64 * chip + b)
  else some ((h - laneSram 0 0) / 2 ^ 16)

/-- CORRECTED_ERROR (19 R343). -/
def execCorrectedError (die : Nat) (s : State) : Out := .next (s.withErrors die (fun e => { e with ce := satInc e.ce }))

/-- The value of a FENCE record (20 R362). -/
def fenceValue (unit n : Nat) : List Byte := leBytes 4 (unit / 2 ^ 32) ++ leBytes 4 (unit % 2 ^ 32) ++ leBytes 4 n

/-- Count an uncorrectable error of a unit; at the sixteenth, firmware appends a fence record to the capability table (19 R347, 20 R362):
the unit is kind x 2^32 + index of that record. -/
def State.countUnit (s : State) (unit : Nat) : State :=
  let n := ((s.power.units.find? (fun u => u.1 == unit)).map (·.2)).getD 0 + 1
  let s := { s with power := { s.power with units := s.power.units.filter (fun u => u.1 != unit) ++ [(unit, n)] } }
  if n = 16 then ({ s with power := { s.power with fences := s.power.fences ++ [(unit, n)] } }).append 0x000A (fenceValue unit n) false
  else s

/-- SCRUB (19 R345): a good or corrected word is left as it is, a bad one is poisoned and counts for its unit (R347); a hole has no word. -/
def scrubWord (word : Nat) (bad : Bool) (s : State) : State :=
  if bad && decide (8 * word < endSram) && (decide (2 ^ 40 ≤ 8 * word) || (s.hbmPlace (8 * word)).isSome) then
    match dieOf (8 * word) with
    | some d =>
      let s' := s.poisonWord d (kindOf (8 * word)) word
      ((s.unitOf (8 * word)).map s'.countUnit).getD s'
    | none => s
  else s

def execScrub (word : Nat) (bad : Bool) (s : State) : Out := .next (scrubWord word bad s)

/-- PLACE bits 30 to 16 of a thread (01 R18), which ERRLOG holds (19 R343). -/
def Thread.placeBits (t : Thread) : Nat :=
  t.core / 192 % 8 * 2 ^ 28 + t.core / 16 % 12 * 2 ^ 24 + t.core % 16 * 2 ^ 20 + t.ctx % 4 * 2 ^ 16

/-- Poison an aligned 8-byte word of a register (19 R343). -/
def Thread.poisonReg (t : Thread) (file : BitVec 2) (reg word : Nat) : Thread :=
  match file with
  | 0 => t.setVreg reg { t.vreg reg with poison := (t.vreg reg).poison ||| BitVec.twoPow 128 word }
  | 1 => { t with k := t.k.set (reg % 8) { t.k[reg % 8]'(by omega) with poison := (t.k[reg % 8]'(by omega)).poison ||| BitVec.twoPow 256 word } }
  | 2 => { t with m := t.m.set (reg % 4) { t.m[reg % 4]'(by omega) with poison := (t.m[reg % 4]'(by omega)).poison ||| BitVec.twoPow 512 word } }
  | _ => { t with e := t.e.set (reg % 8) { t.e[reg % 8]'(by omega) with poison := (t.e[reg % 8]'(by omega)).poison ||| BitVec.twoPow 32 word } }

/-- The die of an error counts a word that is poisoned (19 R343), and logs it. -/
def State.poisoned (s : State) (die : Nat) (kind : BitVec 3) (loc : Nat) : State :=
  (s.withErrors die (fun e => { e with uep := satInc e.uep })).logError die kind loc

/-- A thread whose word in a store or push buffer is spoilt (19 R343): the word will be poisoned where its group is performed (R344). -/
def Thread.spoil (t : Thread) (word : Nat) : Thread :=
  let hit (h : StoreGroup) : StoreGroup :=
    if h.nearWord word || h.farWord word then { h with bad := natInsertAll [word] h.bad } else h
  { t with
    win := t.win.map (fun e => { e with held := e.held.map hit })
    st := t.st.map (fun l => l.map hit)
    gq := t.gq.map (fun l => l.map hit) }

/-- UNCORRECTABLE_ERROR (19 R343, R344, R347). -/
def badStore (die unit : Nat) (what : BadStore) (s : State) : State :=
  let refetch (s : State) : State := s.withErrors die (fun e => { e with rfet := satInc e.rfet })
  let noted (tid : Nat) (kind : BitVec 3) (loc : Thread → Nat) (act : State → State) : State :=
    match s.thread tid with
    | none => s
    | some t => (act s).poisoned die kind (loc t)
  (match what with
    | .refetched => refetch s
    | .cacheLine core line =>
      refetch { s with mem := { s.mem with
        l1 := s.mem.l1.filter (fun c => !(c.core == core && c.line == line))
        icache := s.mem.icache.filter (fun c => !(c.core == core && c.line == line)) } }
    | .translation owner base => refetch { s with mem := { s.mem with tlb := s.mem.tlb.filter (fun t => !(t.owner == owner && t.base == base)) } }
    | .memory kind word => s.poisonWord die kind word
    | .buffer tid word => noted tid 0 (fun _ => 8 * word) (fun s => s.withThread tid (fun t => t.spoil word))
    | .register tid file reg word =>
      noted tid 1 (fun t => t.placeBits + file.toNat * 2 ^ 8 + reg % 32) (fun s => s.withThread tid (fun t => t.poisonReg file reg word))
    | .image tid loc =>
      noted tid 3 (fun _ => loc)
        (fun s => s.withThread tid (fun t => if t.status == Status.parked then { t with imgBad := true } else t))
    | .access tid reg =>
      match s.thread tid with
      | none => s
      | some t =>
        if t.status == Status.retired then s
        else ((s.withLaunch t.lid (fun l => l.addFault cPoison 0 tid 0)).endLaunch t.lid 1).logError die 5 (t.placeBits + reg.toNat)).countUnit unit

def execUncorrectableError (die unit : Nat) (what : BadStore) (s : State) : Out := .next (badStore die unit what s)

/-- Bytes that a read of the host or of firmware returns. -/
def State.returns (s : State) (bs : List Byte) : State := { s with host := { s.host with lastRead := bs } }

/-- ENERGY_READ_64, LOW and HIGH (19 R339). -/
def energyRead (acc : Nat) (s : State) : State :=
  if h : acc < 9 then s.returns (leBytes 8 s.power.energy[acc].toNat) else s
def energyLow (acc : Nat) (s : State) : State :=
  if h : acc < 9 then
    { (s.returns (leBytes 4 s.power.energy[acc].toNat)) with
      power := { s.power with latch := s.power.latch.set acc (s.power.energy[acc].extractLsb' 32 32) } }
  else s
def energyHigh (acc : Nat) (s : State) : State :=
  if h : acc < 9 then s.returns (leBytes 4 s.power.latch[acc].toNat) else s

def execEnergyRead64 (acc : Nat) (s : State) : Out := .next (energyRead acc s)
def execEnergyReadLow (acc : Nat) (s : State) : Out := .next (energyLow acc s)
def execEnergyReadHigh (acc : Nat) (s : State) : Out := .next (energyHigh acc s)

/-- Counters of a die in the order of 19 R337. -/
def Errors.counter (e : Errors) (n : Nat) : BitVec 32 := [e.ce, e.uep, e.uenc, e.rfet, e.cons].getD n 0
def Errors.cleared (e : Errors) (n : Nat) : Errors :=
  match n with
  | 0 => { e with ce := 0 }
  | 1 => { e with uep := 0 }
  | 2 => { e with uenc := 0 }
  | 3 => { e with rfet := 0 }
  | 4 => { e with cons := 0 }
  | _ => e

/-- ERROR_COUNTER_READ (19 R343): read clears. -/
def counterRead (die ctr : Nat) (s : State) : State :=
  if h : die < 12 then
    if ctr < 5 then (s.returns (leBytes 4 (s.power.errors[die].counter ctr).toNat)).withErrors die (fun e => e.cleared ctr) else s
  else s

def execErrorCounterRead (die ctr : Nat) (s : State) : Out := .next (counterRead die ctr s)

/-- ERRLOG_READ (19 R343): read clears. -/
def errlogRead (die : Nat) (s : State) : State :=
  if h : die < 12 then (s.returns (leBytes 8 s.power.errors[die].log.toNat)).withErrors die (fun e => { e with log := 0 }) else s

def execErrlogRead (die : Nat) (s : State) : Out := .next (errlogRead die s)

/-- LANTERN_RECORD_READ (19 R341): a read of either register clears both. -/
def lanternRead (first : Bool) (s : State) : State :=
  { (s.returns (leBytes 8 (if first then s.power.lntfirst.toNat else s.power.lntstat.toNat))) with
    power := { s.power with lntstat := 0, lntfirst := 0 } }

def execLanternRecordRead (first : Bool) (s : State) : Out := .next (lanternRead first s)

/-- A write of PLIM (19 R335, R337): bits [15:0] are the watts, and values outside 1000 to 3200 are ignored. Bits [31:16] have no meaning in the spec: the
model's choice is that they change nothing (log 36). -/
def setPlim (watts : BitVec 32) (s : State) : State :=
  let w := watts.toNat % 2 ^ 16
  if 1000 ≤ w ∧ w ≤ 3200 then { s with power := { s.power with plim := w } } else s

/-- PLIM_WRITE (19 R337). -/
def execPlimWrite (watts : BitVec 32) (s : State) : Out := .next (setPlim watts s)

end Sys2Proof.Machine
end

