-- ==== Sys2Proof/Machine/HostPort.lean ====
section
/-!
DEFINITION. The host (20 R352 to R365), resets and boot (R366, R367), attestation, debug unlock and the foghorn (R369 to R373).
-/
namespace Sys2Proof.Machine

/-- Bytes of a buffer. -/
def bufBytes (l : List Host.Cell) (a n : Nat) : List Byte := (List.range n).map (fun i => cellGet l (a + i))
def bufWrite (l : List Host.Cell) (a : Nat) (bs : List Byte) : List Host.Cell := cellsWrite l (wholeBytes a bs)

/-- Whether the part is in recovery (20 R373). -/
def State.recovery (s : State) : Bool := s.host.fogstat != 0

/-- A unit is fenced at a reset (19 R346, R347; kinds of Config.selfTest): a lane, a core, an L2 slice, a bank, an HBM channel, a scale-up link, a cluster, a
core's contribution to cluster memory. -/
def State.fenceUnit (s : State) (unit : Nat) : State :=
  let i := unit % 2 ^ 32
  let chip (n : Nat) (f : Chiplet → Chiplet) : State := if h : n < 4 then { s with chiplets := s.chiplets.set n (f s.chiplets[n]) } else s
  match unit / 2 ^ 32 with
  | 0 => if i < 12288 then s.withCore (i / 8) (fun c => { c with badLanes := c.badLanes ||| BitVec.twoPow 8 (i % 8) }) else s
  | 1 => if i < 1536 then s.withCore i (fun c => { c with fenced := true }) else s
  | 2 => chip (i / 384) (fun c => { c with deadSlices := natInsertAll [i % 384] c.deadSlices })
  | 3 => chip (i / 64) (fun c => { c with deadBanks := natInsertAll [i % 64] c.deadBanks })
  | 4 => chip (i / 128) (fun c => { c with deadChannels := natInsertAll [i % 128] c.deadChannels })
  | 5 => if i < 32 then { s with fab := { s.fab with fenced := s.fab.fenced ||| BitVec.twoPow 32 i } } else s
  | 6 => s.withCluster i (fun c => { c with enabled := false })
  | 7 => s.withCluster (i / 16) (fun c => { c with deadSram := natInsertAll [i] c.deadSram })
  | _ => s

/-- A reset up to boot step 1 (20 R366, R367): memory is cleared to zero with no poison, every line is full, the always-on registers stay. A boot after the
package has lost power reaches step 9 once the SRAM dies are cool (19 R340). -/
def State.restart (s : State) (cold : Bool) : State :=
  let s1 := s.lost
  let energy := if cold then s1.power.energy else s.power.energy
  { s1 with
    powered := true
    power := { s1.power with fences := [], energy := energy, winEnergy := energy[8] }
    host := { s1.host with
      epoch := if cold then 0 else s.host.epoch
      boots := s.host.boots + 1
      active := s.powered && s.host.active } }

/-- The signature checks of boot step 2 or 3 (20 R367): the image, and where it fails its backup, up to the third failure in a row. What the count then is,
and whether a check succeeded. -/
def verifyStage (boot stage count : Nat) : Nat × Bool :=
  if Config.flashVerifies boot stage false then (0, true)
  else if 2 ≤ count then (3, false)
  else if Config.flashVerifies boot stage true then (0, true)
  else (count + 2, false)

/-- Boot steps 2 and 3. -/
def verifyBoot (boot count : Nat) : Nat × Bool :=
  if (verifyStage boot 1 count).2 then verifyStage boot 2 (verifyStage boot 1 count).1 else verifyStage boot 1 count

/-- What the foghorn erases and sets (20 R370, R372): the key store and FOGSTAT. -/
def State.erased (s : State) (causes : BitVec 5) : State :=
  { s with host := { s.host with fogstat := s.host.fogstat ||| causes, keyErased := true, seed := [], signKey := [] } }

/-- Boot steps 3 to 9 (20 R367): stage 1 derives the identity key (R368); the units that fail self-test, and those of the fence records written before the reset,
are fenced until the next; the capability table is written. -/
def State.bootOn (s : State) (fences : List (Nat × Nat)) : State :=
  let s := { s with host := { s.host with signKey := privateKey s.host.seed } }
  (((distinct (Config.selfTest s.host.boots ++ fences.map (·.1))).foldl State.fenceUnit s).fullBudgets).bootTable

/-- A reset and its boot (20 R366, R367). In recovery the boot ends at step 1 (R373). A boot whose steps 2 and 3 find no image that verifies stops there, and
the third failure in a row sounds the foghorn (R372; log 32). -/
def State.reboot (s : State) (cold : Bool) : State :=
  let s2 := s.restart cold
  if s.recovery then s2
  else
    let r := verifyBoot s2.host.boots s.host.sigfail.toNat
    let s3 := { s2 with host := { s2.host with sigfail := BitVec.ofNat 2 r.1 } }
    if r.2 then s3.bootOn s.power.fences
    else if 3 ≤ r.1 then (s3.erased 16).restart false
    else { s3 with host := { s3.host with stopped := true, active := false } }

/-- COLD_RESET and WARM_RESET (20 R366). Without power only a cold reset acts (19 R340). -/
def execColdReset (s : State) : Out := .next (s.reboot true)
def execWarmReset (s : State) : Out := .next (if s.powered then s.reboot false else s)

/-- The foghorn (20 R370, R372): the key store is erased, FOGSTAT is set, the package is reset. -/
def State.sound (s : State) (causes : BitVec 5) : State := (s.erased causes).reboot false

def execFoghorn (causes : BitVec 5) (s : State) : Out := .next (if causes = 0 ∨ !s.powered then s else s.sound causes)

/-- Complete a command (20 R356); in recovery FOGSTAT stands in the payload (R370). -/
def State.reply (s : State) (code : BitVec 6) (res : BitVec 32) : State :=
  let h := { s.host with done := true, busy := false, code := code, res := res }
  if s.recovery then
    { s with host := { h with payload := bufWrite h.payload 0 (leBytes 8 h.fogstat.toNat), len := 8 } }
  else { s with host := h }

/-- A command is written to MBCTL, or goes on (20 R356, R358): while another is busy the write is ignored. After a boot that has stopped nothing serves it: it
stays busy (log 32). -/
def command (cmd : BitVec 8) (act : State → State) (s : State) : Out :=
  let begun := { s with host := { s.host with cmd := cmd, busy := true, done := false } }
  if s.host.busy && s.host.cmd != cmd then .next s else .next (if s.host.stopped then begun else act begun)

/-- DSTART (20 R358, R360): argument checks, reasons of 15 R290, room. The root lies anywhere in local HBM. -/
def dstartNow (s : State) : State :=
  let root := s.host.args[0].toNat
  let blk := s.host.args[1].toNat
  if s.recovery || s.host.quiesced || !s.host.active then s.reply 4 0
  else if root % 2 ^ 16 ≠ 0 ∨ 2 ^ 40 ≤ root ∨ blk % 64 ≠ 0 ∨ s.spot blk ≠ .hbm ∨ (s.mem.poisonAt blk 64).isSome then s.reply 1 0
  else
    let b := BitVec.ofNat 512 (s.mem.number blk 64)
    match s.launchReason b true with
    | some r => s.reply 1 (BitVec.ofNat 32 r)
    | none => if s.launchRoom b then (s.accept b root 0).reply 0 (BitVec.ofNat 32 s.nextLid) else s.reply 5 0

def execDstart (s : State) : Out := command 0x01 dstartNow s

/-- Whether every access that was translated has been performed (20 R359): no store group waits to be performed, no remote load is under way. -/
def State.settled (s : State) : Bool :=
  s.threads.all (fun t => t.st.isEmpty && t.gq.isEmpty && t.win.all (fun e => e.held.isEmpty) && t.remote.all (fun r => r.reply != .none))
    && s.clusters.all (fun c => c.copies.all (fun x => x.remote.all (fun r => r.reply != .none)))

/-- INVAL (18 R320, 20 R359). -/
def invalNow (s : State) : State :=
  let root := s.host.args[0].toNat
  let base := s.host.args[1].toNat
  let pages := s.host.args[2].toNat
  let covers (t : TlbLeaf) : Bool :=
    (root == 0 || t.root == root) && (pages == 0 || decide (t.base < base + pages * 2 ^ 16 ∧ base < t.base + t.size))
  if s.recovery then s.reply 4 0
  else if base % 2 ^ 16 ≠ 0 then s.reply 1 0
  else
    let s' := { s with mem := { s.mem with tlb := s.mem.tlb.filter (fun t => !covers t) } }
    if s'.settled then s'.reply 0 0 else s'

def execInval (s : State) : Out := command 0x02 invalNow s

/-- Count the outcome of a signature check (20 R367): the third failure in a row sounds the foghorn (R372). -/
def State.verified (s : State) (ok : Bool) : State :=
  if ok then { s with host := { s.host with sigfail := 0 } }
  else
    let s' := { s with host := { s.host with sigfail := if s.host.sigfail = 3 then 3 else s.host.sigfail + 1 } }
    if s'.host.sigfail = 3 then s'.sound 16 else s'

/-- FWSTAGE (20 R357, R364): the signature covers index, length and bytes of the chunk. -/
def fwstageNow (s : State) : State :=
  let n := s.host.len.toNat
  let idx := s.host.args[0].toNat
  if 32768 < n ∨ n < 29792 then s.reply 1 0
  else
    let body := bufBytes s.host.payload 0 (n - 29792)
    if Config.signatureOk 0 (leBytes 8 idx ++ leBytes 8 body.length ++ body) (bufBytes s.host.payload (n - 29792) 29792) then
      let s' := s.verified true
      ({ s' with host := { s'.host with staged := s'.host.staged.filter (fun (c : Nat × List Byte) => c.1 != idx) ++ [(idx, body)] } }).reply 0 0
    else (s.reply 2 0).verified false

def execFwstage (s : State) : Out := command 0x03 fwstageNow s

/-- Whether a copy engine, Welt unit, matrix queue and Awl are quiet, and every thread has left its context (20 R357). -/
def State.quiet (s : State) : Bool :=
  s.threads.all (fun t => !t.holds && t.gq.isEmpty)
    && s.clusters.all (fun c => c.welts.isEmpty && (if c.pause then c.copies.all (fun x => !x.running) else c.copies.isEmpty))
    && s.cores.all (fun c => c.mq.isEmpty && !c.engine)

/-- Park every thread and keep the keepers from placing any (20 R357). -/
def State.parkAll (s : State) : State :=
  (s.threads.filter Thread.holds).foldl (fun s t => s.parkGroup t.tid) { s with host := { s.host with quiesced := true } }

/-- UTF-8 of a character. -/
def utf8 (c : Char) : List Byte :=
  let n := c.toNat
  let tail (k : Nat) : Byte := BitVec.ofNat 8 (0x80 + n / 64 ^ k % 64)
  if n < 0x80 then [BitVec.ofNat 8 n]
  else if n < 0x800 then [BitVec.ofNat 8 (0xC0 + n / 64), tail 0]
  else if n < 0x10000 then [BitVec.ofNat 8 (0xE0 + n / 4096), tail 1, tail 0]
  else [BitVec.ofNat 8 (0xF0 + n / 262144), tail 2, tail 1, tail 0]

/-- The value of an ERRATUM record (20 R362): identifier, build that fixes it, text. -/
def erratumValue (e : BitVec 32 × BitVec 32 × List Char) : List Byte := leBytes 4 e.1.toNat ++ leBytes 4 e.2.1.toNat ++ e.2.2.flatMap utf8

/-- FWACT (20 R365): checks the image, then quiesces, switches, appends, advances EPOCH, resumes. With nothing staged no chunk is present (R357). -/
def fwactNow (s : State) : State :=
  if s.host.staged.isEmpty || !Config.imageWhole s.host.staged then s.reply 4 0
  else if !Config.imageSigned s.host.staged then (s.reply 2 0).verified false
  else if decide (Config.imageBuild s.host.staged < s.host.minBuild) then (s.verified true).reply 4 0
  else
    let s1 := (s.verified true).parkAll
    if !s1.quiet then s1
    else
      let s2 := { s1 with host := { s1.host with
        build := BitVec.ofNat 32 (Config.imageBuild s.host.staged)
        epoch := s1.host.epoch + 1
        staged := []
        quiesced := false } }
      let s3 := (Config.imageErrata s.host.staged).foldl (fun s e => s.append 0x0009 (erratumValue e) true) s2
      ({ s3 with host := { s3.host with capFver := s3.fver } }).reply 0 0

def execFwact (s : State) : Out := command 0x04 fwactNow s

/-- The report of 20 R369 but for its signature. -/
def State.report (s : State) : List Byte :=
  leBytes 8 0x0000534341540001 ++ leBytes 4 0x5C091536 ++ leBytes 4 s.host.quiesced.toNat ++ (List.range 16).map Config.serialByte
    ++ bufBytes s.host.payload 0 32 ++ leBytes 8 s.fver.toNat
    ++ (List.range 64).map (Config.imageDigest 0 s.host.build.toNat) ++ (List.range 64).map (Config.imageDigest 1 s.host.build.toNat)
    ++ (List.range 64).map (Config.tableDigest (s.capBytes 0 s.capLen))

/-- ATTEST (20 R369). -/
def attestNow (s : State) : State :=
  if s.recovery then s.reply 4 0
  else if s.host.len.toNat < 32 then s.reply 1 0
  else
    let r := s.report
    let out := r ++ (List.range 29792).map (Config.identitySignature s.host.signKey r)
    ({ s with host := { s.host with payload := bufWrite s.host.payload 0 out, len := 30056 } }).reply 0 0

def execAttest (s : State) : Out := command 0x05 attestNow s

/-- QUIESCE (20 R357). -/
def quiesceNow (s : State) : State :=
  if s.recovery then s.reply 4 0
  else
    let s' := s.parkAll
    if s'.quiet then s'.reply 0 0 else s'

def execQuiesce (s : State) : Out := command 0x06 quiesceNow s

/-- RESUME (20 R357, R363). -/
def resumeNow (s : State) : State :=
  if s.recovery || !s.host.quiesced then s.reply 4 0
  else ({ s with host := { s.host with quiesced := false, epoch := s.host.epoch + 1 } }).reply 0 0

def execResume (s : State) : Out := command 0x07 resumeNow s

/-- RESET (20 R357, R366). -/
def execMailboxReset (s : State) : Out := command 0x08 (fun s => s.reboot false) s

/-- A command code that is not assigned (20 R357). -/
def execUnknownCommand (cmd : BitVec 8) (s : State) : Out :=
  if 1 ≤ cmd.toNat ∧ cmd.toNat ≤ 8 then .next s else command cmd (fun s => s.reply 3 0) s

/-- DBGGO (20 R371): the token is SERIAL, DBGNONCE, 8 zero bytes and a signature over these 56 bytes. -/
def unlock (s : State) : State :=
  if s.host.stopped then s else
  let head := (List.range 16).map Config.serialByte ++ (List.range 32).map (Config.nonceByte s.host.nonces) ++ leBytes 8 0
  let ok := bufBytes s.host.token 0 56 == head && Config.signatureOk 2 head (bufBytes s.host.token 56 29792)
  let s' := { s with host := { s.host with nonces := s.host.nonces + 1 } }
  if ok then { s' with host := { s'.host with unlocked := true } } else s'.sound 8

def execDbggo (s : State) : Out := .next (unlock s)

/-- A byte of HBM as the host reads it (20 R351): of the firmware region it reads the capability table, and zero elsewhere. -/
def State.hostByte (s : State) (a : Nat) : Byte :=
  match s.spot a with
  | .hbm => s.mem.byte a
  | .cap => s.capByte (a - s.capBase)
  | _ => 0

/-- HOST_MEM_ACCESS (20 R353): a read or write of HBM in service, at its home; writes to the firmware region are ignored (R351). Before
boot step 9 a request gets the "memory not active" response; in recovery CXL.mem is not enabled (R373). -/
def hostMem (addr : Nat) (data : List Byte) (write : Bool) (s : State) : State :=
  let inHbm (a : Nat) : Bool := s.spot a == .hbm || s.spot a == .cap || s.spot a == .firmware
  if s.recovery then s
  else if !s.host.active then { s with host := { s.host with memOff := true } }
  else if !((List.range data.length).all (fun i => inHbm (addr + i))) then s
  else
    let s := { s with host := { s.host with memOff := false } }
    if write then { s with mem := s.mem.perform none none ((wholeBytes addr data).filter (fun b => s.spot b.addr == .hbm)) }
    else s.returns ((List.range data.length).map (fun i => s.hostByte (addr + i)))

def execHostMemAccess (addr : Nat) (data : List Byte) (write : Bool) (s : State) : Out := .next (hostMem addr data write s)

/-- HOST_SNOOP (20 R354): the host takes a 64-byte line of the host window, which leaves the host-line cache, and writes it. -/
def snoop (line : Nat) (data : List Byte) (s : State) : State :=
  if !s.recovery && s.spot (64 * line) == .host then
    let m := s.mem.perform none none (wholeBytes (64 * line) (data.take 64))
    { s with mem := { m with hostLines := m.hostLines.filter (fun p => p.1 != line) } }
  else s

def execHostSnoop (line : Nat) (data : List Byte) (s : State) : Out := .next (snoop line data s)

/-- The command of a write to MBCTL (20 R356, R357). -/
def startCommand (cmd : BitVec 8) (s : State) : Out :=
  match cmd.toNat with
  | 1 => execDstart s
  | 2 => execInval s
  | 3 => execFwstage s
  | 4 => execFwact s
  | 5 => execAttest s
  | 6 => execQuiesce s
  | 7 => execResume s
  | 8 => execMailboxReset s
  | _ => execUnknownCommand cmd s

/-- A write of DBGCTL (04 R111): CX, then one step or a halt; ignored until the unlock. -/
def writeDbgctl (core : Nat) (v : Word) (s : State) : State :=
  if !s.host.unlocked || decide (1536 ≤ core) then s
  else
    let s := s.withCore core (fun c => { c with cx := v.extractLsb' 4 2 })
    if v.getLsbD 1 then stepCore core (v.extractLsb' 4 2).toNat s else setHalt core (v.getLsbD 0) s

/-- DBGCTL as it reads (04 R111): CX and HALT; STEP reads as zero. -/
def State.dbgCtl (s : State) (core : Nat) : Word :=
  if !s.host.unlocked then 0
  else
    match s.cores.find? (fun c => c.core == core) with
    | some c => BitVec.ofNat 64 (c.cx.toNat * 16 + c.halt.toNat)
    | none => 0

/-- Offsets of BAR0 (20 R355): telemetry and debug windows. -/
def barTelemetry : Nat := 0x10000
def barDebug : Nat := 0x20000

/-- A write of 8 bytes to a register of BAR0 (20 R355, R356, R371, 19 R337): MBCTL starts a command where none is busy; arguments, payload length, payload,
token; PLIM; the debug registers. Anything else is ignored. -/
def hostWrite (off : Nat) (v : Word) (s : State) : Out :=
  let h := s.host
  let dbg := off - barDebug
  if off = 0 then (if h.busy then .next s else startCommand (v.setWidth 8) s)
  else if 0x10 ≤ off ∧ off < 0x38 ∧ off % 8 = 0 then
    .next { s with host := { h with args := Vector.ofFn (fun i => if i.val = (off - 0x10) / 8 then v else h.args[i]) } }
  else if off = 0x38 then .next { s with host := { h with len := v.setWidth 16 } }
  else if 0x8000 ≤ off ∧ off < 0x10000 ∧ off % 8 = 0 then
    .next { s with host := { h with payload := bufWrite h.payload (off - 0x8000) (leBytes 8 v.toNat) } }
  else if off = barTelemetry + 0x2810 then execPlimWrite (v.setWidth 32) s
  else if barDebug ≤ off ∧ dbg < 0x6000 ∧ dbg % 16 = 0 then .next (writeDbgctl (dbg / 16) v s)
  else if barDebug ≤ off ∧ 0x6000 ≤ dbg ∧ dbg < 0x6300 ∧ dbg % 8 = 0 then execCedbgPause ((dbg - 0x6000) / 8) (v.getLsbD 0) s
  else if off = barDebug + 0x6428 then (if v.getLsbD 0 then execDbggo s else .next s)
  else if barDebug ≤ off ∧ 0x8000 ≤ dbg ∧ dbg < 0x10000 ∧ dbg % 8 = 0 then
    .next { s with host := { h with token := bufWrite h.token (dbg - 0x8000) (leBytes 8 v.toNat) } }
  else .next s

/-- What the mailbox and debug windows hold at an offset that is a multiple of 8 (20 R356, R371, 04 R111); what is not listed, and DBGGO, reads as zero. -/
def State.barWord (s : State) (off : Nat) : Word :=
  let h := s.host
  let dbg := off - barDebug
  if off = 0 then h.cmd.setWidth 64
  else if off = 8 then h.res ++ 0#24 ++ h.code ++ BitVec.ofBool h.done ++ BitVec.ofBool h.busy
  else if 0x10 ≤ off ∧ off < 0x38 then h.args.toList.getD ((off - 0x10) / 8) 0
  else if off = 0x38 then h.len.setWidth 64
  else if 0x8000 ≤ off ∧ off < 0x10000 then BitVec.ofNat 64 (leNat (bufBytes h.payload (off - 0x8000) 8))
  else if off < barDebug then 0
  else if dbg < 0x6000 then (if dbg % 16 = 0 then s.dbgCtl (dbg / 16) else s.dbgStat (dbg / 16))
  else if dbg < 0x6300 then s.ceDbg ((dbg - 0x6000) / 8)
  else if 0x6400 ≤ dbg ∧ dbg < 0x6420 then BitVec.ofNat 64 (leNat ((List.range 8).map (fun i => Config.nonceByte h.nonces (dbg - 0x6400 + i))))
  else if dbg = 0x6420 then (BitVec.ofBool h.unlocked).setWidth 64
  else if 0x8000 ≤ dbg ∧ dbg < 0x10000 then BitVec.ofNat 64 (leNat (bufBytes h.token (dbg - 0x8000) 8))
  else 0

/-- A 4-byte read of the errors of a die (19 R337, R343): `o` counts from CE. A half of ERRLOG that is read is cleared (log 36). -/
def errorRead (die o : Nat) (s : State) : State :=
  if o < 20 then counterRead die (o / 4) s
  else
    let half (e : Errors) : BitVec 32 := if o = 32 then e.log.extractLsb' 0 32 else e.log.extractLsb' 32 32
    (s.returns (leBytes 4 ((s.power.errors.toList[die]?).map half |>.getD 0).toNat)).withErrors die (fun e =>
      { e with log := if o = 32 then e.log.extractLsb' 32 32 ++ 0#32 else 0#32 ++ e.log.extractLsb' 0 32 })

/-- A 4-byte read of the telemetry window (19 R336 to R339, R343); what is not listed reads as zero. -/
def telemetryRead (o : Nat) (s : State) : State :=
  let word (v : BitVec 32) : State := s.returns (leBytes 4 v.toNat)
  if o < 0x2000 then
    let d := o / 0x400
    let r := o % 0x400
    if r < 0x100 then word (s.sensorWord d (r / 4))
    else if r = 0x100 then word (s.tmax d)
    else if r = 0x108 then word ((s.power.volt.toList.getD d 0).setWidth 32)
    else if r = 0x110 then energyLow d s
    else if r = 0x114 then energyHigh d s
    else if (0x120 ≤ r ∧ r < 0x134) ∨ r = 0x140 ∨ r = 0x144 then errorRead d (r - 0x120) s
    else word 0
  else if o < 0x2400 then
    let d := 8 + (o - 0x2000) / 0x100
    let r := o % 0x100
    if r < 0x40 then word (s.sensorWord d (r / 4))
    else if r = 0x40 then word (s.tmax d)
    else if (0x60 ≤ r ∧ r < 0x74) ∨ r = 0x80 ∨ r = 0x84 then errorRead d (r - 0x60) s
    else word 0
  else if o = 0x2800 then energyLow 8 s
  else if o = 0x2804 then energyHigh 8 s
  else if o = 0x2810 then word (BitVec.ofNat 32 s.power.plim)
  else if o = 0x2818 then word (BitVec.ofNat 32 s.power.govn)
  else word 0

/-- A 4-byte read of BAR0 (20 R355). -/
def barRead (off : Nat) (s : State) : State :=
  if barTelemetry ≤ off ∧ off < barTelemetry + 0x4000 then telemetryRead (off - barTelemetry) s
  else s.returns (leBytes 4 ((s.barWord (off / 8 * 8)).toNat / 2 ^ (8 * (off % 8))))

/-- A read of BAR0 (20 R355): of 8 bytes an energy accumulator returns one sample whole (19 R339); anything else is two reads of 4 bytes, the lower first. -/
def hostRead (off : Nat) (wide : Bool) (s : State) : State :=
  let t := off - barTelemetry
  if !wide then barRead off s
  else if barTelemetry ≤ off ∧ (t = 0x2800 ∨ (t < 0x2000 ∧ t % 0x400 = 0x110)) then energyRead (if t = 0x2800 then 8 else t / 0x400) s
  else
    let s1 := barRead off s
    let s2 := barRead (off + 4) s1
    s2.returns (s1.host.lastRead ++ s2.host.lastRead)

/-- HOST_REGISTER_WRITE (20 R355): a write of a register of BAR0; a read, which the opcode table gives no row of its own, is the same event. -/
def execHostRegisterWrite (off : Nat) (a : HostAccess) (s : State) : Out :=
  match a with
  | .write v => hostWrite off v s
  | .read wide => .next (hostRead off wide s)

end Sys2Proof.Machine
end

