-- ==== Sys2Proof/Machine/Lanes.lean ====
section
/-!
DEFINITION. Events of caches, walkers, lanes, store buffers, the matrix engine, stream engines and the Awl (05 R113, 06 R126 to R140, 09
R209, 10 R230, R231, 18 R317, R318, R326 to R328): what makes the work of a window progress where the schedule is given (`lag`, log 4).
-/
namespace Sys2Proof.Machine

/-- Keep the last n entries of a cache that a test selects: those used most recently in a micro-TLB, the newest of any other (18 R317; log 8). -/
def newest {α : Type} (same : α → Bool) (n : Nat) (l : List α) : List α :=
  let extra := (l.filter same).length - n
  (l.foldl (fun (acc : List α × Nat) x => if same x && decide (acc.2 < extra) then (acc.1, acc.2 + 1) else (acc.1 ++ [x], acc.2)) ([], 0)).1

/-- Where issue is predicted to go after a word (05 R113): to the target of jal, and of a conditional branch (03 R81) whose displacement is
negative or whose H.BRL (02 R37) is set; behind any other word to the next. Nothing is predicted behind jalr (log 8). -/
def predictedNext (pc w : Word) : Option Word :=
  let op := w.extractLsb' 54 8
  let fn := w.extractLsb' 48 6
  let short : Word := (w.extractLsb' 0 19).signExtend 64 <<< 3
  let branch : Bool := op == 0x50 && decide (fn.toNat < 6) && (w.getLsbD 18 || w.getLsbD 22)
  if w.extractLsb' 62 2 == 0 && (branch || (op == 0x51 && fn == 0)) then some (pc + short)
  else if w.extractLsb' 62 2 == 2 && op == 0x51 && fn == 0 then some (pc + ((w.extractLsb' 0 32).signExtend 64 <<< 3))
  else if w.extractLsb' 62 2 == 0 && op == 0x52 then none
  else some (pc + 8)

/-- Whether the line of an address lies on the predicted path of the thread in focus: its next n words (05 R113). -/
def State.onPath (s : State) (va : Word) : Nat → Word → Bool
  | 0, _ => false
  | n + 1, pc =>
    va.toNat / 128 == pc.toNat / 128 ||
      (match s.fetchAt pc with
        | .ok w => (match predictedNext pc w with
          | some q => s.onPath va n q
          | none => false)
        | .error _ => false)

/-- INSTRUCTION_FETCH_FILL (05 R113): a fetch along the predicted path of a running thread asks for a line; the path is followed for as many
words as the cache has lines (log 8). -/
def fetchFill (tid : Nat) (va : Word) (s : State) : State :=
  match s.thread tid with
  | some t => if t.status == .running && ({ s with me := t } : State).onPath va 512 t.pc then s.fillCode t va else s
  | none => s

def execInstructionFetchFill (tid : Nat) (va : Word) (s : State) : Out := .next (fetchFill tid va s)

/-- DATA_L1_FILL (06 R140): a load of a thread that holds a context asks for a line; 8 banks of 32 sets of 4 ways. -/
def dataFill (tid : Nat) (va : Word) (s : State) : State :=
  match s.thread tid with
  | some t => if t.holds then s.fillData t va else s
  | none => s

def execDataL1Fill (tid : Nat) (va : Word) (s : State) : Out := .next (dataFill tid va s)

/-- A translation cache takes an entry, the newest of its set; the set keeps n (18 R317, log 8). A hit in a micro-TLB puts its entry last (State.hit). -/
def holdEntry (set : TlbLeaf → Bool) (n : Nat) (e : TlbLeaf) (l : List TlbLeaf) : List TlbLeaf :=
  newest (fun x => x.owner == e.owner && set x) n
    (l.filter (fun x => !(x.owner == e.owner && x.root == e.root && x.base == e.base && x.size == e.size)) ++ [e])

/-- The sets of a core's TLB (18 R317): 256, by address. -/
def tlbSet (a : Nat) : Nat := a / 2 ^ 16 % 256

/-- PAGE_WALK (18 R317, R318): the walker cache of the die layer, of 256 entries, holds the pointers; the leaf goes into the TLB of the agent that
missed, of 16 entries, and that of the core, of 2048 in sets of 8, or into that of the engine, of 64. Agents 0 to 7 are the lanes of the thread's core,
8 its access processor, 9 and 10 the copy engine and the Welt unit of its cluster. Nothing is held of a walk that finds no valid leaf but its pointers. -/
def walkDone (agent tid : Nat) (va : Word) (s : State) : State :=
  match s.thread tid with
  | none => s
  | some t =>
    if (agent < 9 ∧ !t.holds) ∨ 11 ≤ agent ∨ windowRegion ≤ va.toNat then s
    else
      let layer := layerOf t.core
      let leaf (owner : Nat) (e : Word) (bits : Nat) : TlbLeaf := ⟨owner, t.root, va.toNat / 2 ^ bits * 2 ^ bits, 2 ^ bits, e⟩
      let l := (s.walkPointers t.root va.toNat layer).foldl (fun l p => holdEntry (fun _ => true) 256 (leaf (walkerCache layer) p.1 p.2) l) s.mem.tlb
      let l := match s.walk t.root va.toNat layer with
        | none => l
        | some (e, bits) =>
          if agent < 9 then
            holdEntry (fun x => tlbSet x.base == tlbSet (leaf 0 e bits).base) 8 (leaf t.core e bits)
              (holdEntry (fun _ => true) 16 (leaf (microTlb t.core agent) e bits) l)
          else holdEntry (fun _ => true) 64 (leaf (engineTlb t.core (agent - 9)) e bits) l
      { s with mem := { s.mem with tlb := l } }

def execPageWalk (walker : Walker) (va : Word) (s : State) : Out := .next (walkDone walker.agent walker.tid va s)

/-- Whether the window of a thread may progress. -/
def Thread.active (t : Thread) : Bool := t.holds && !t.held && t.fault.isNone && t.carry.isNone

/-- Act on the window of a thread that may progress. -/
def State.onWindow (s : State) (tid : Nat) (f : State → State) : State :=
  s.withFocus tid (fun s => if s.me.active then f s else s)

/-- BROADCAST (06 R126): the next word of cmd goes to every granted lane, unless one of them has no room; not on a halted core (04 R112). -/
def State.broadcast (s : State) : State :=
  if s.halted s.me.core || !s.laneRoom then s
  else
    match (List.range s.me.win.length).find? (fun k => (s.me.win[k]?).any (fun e => !e.queued)) with
    | some k => s.withEntry k (fun e => { e with queued := true })
    | none => s

def broadcastNext (tid : Nat) (s : State) : State := s.onWindow tid State.broadcast

def execBroadcast (tid : Nat) (s : State) : Out := .next (broadcastNext tid s)

/-- LANE_GROUP_EXECUTE (06 R131, R132): the first group in a lane whose sources have arrived. -/
def laneGroup (tid lane : Nat) (s : State) : State :=
  s.onWindow tid (fun s =>
    match s.pendingWork.find? (fun p =>
      match s.me.win[p.1]? with
      | some e => (e.op.isForm && s.formReady p.1 e) || ((s.unit p.1 e || p.2 % s.me.lanes == lane) && s.allowed p.1 e p.2)
      | none => false) with
    | some (k, g) => (s.tryGroup k g).1.retire
    | none => s)

def execLaneGroupExecute (tid lane : Nat) (s : State) : Out := .next (laneGroup tid lane s)

/-- LOAD_GROUP_LAND (06 R131, 09 R198): a group of a load, a pop or a gather. -/
def loadLand (tid entry group : Nat) (s : State) : State :=
  s.onWindow tid (fun s => if s.pendingWork.contains (entry, group) then (s.tryGroup entry group).1.retire else s)

def execLoadGroupLand (tid entry group : Nat) (s : State) : Out := .next (loadLand tid entry group s)

/-- EMPTY_LINE_FILLED_WAKE (14 R266): reads that waited are tried again. A scalar read is tried again as its instruction is. -/
def emptyWake (tid : Nat) (s : State) : State :=
  s.onWindow tid (fun s =>
    (s.sweep (s.pendingWork.filter (fun p => (s.me.win[p.1]?).any (fun e => e.ops.any (fun op => op.isLoad || s.me.lanesRead op))))).retire)

def execEmptyLineFilledWake (tid : Nat) (s : State) : Out := .next (emptyWake tid s)

/-- STORE_RELEASE (06 R134) and G_RELEASE (18 R327): the oldest entry, once every lane has completed it. -/
def releaseOldest (awl : Bool) (tid : Nat) (s : State) : State :=
  s.onWindow tid (fun s => if s.me.win.head?.any (fun e => e.op.isAwl == awl) then s.releaseHead else s)

def execStoreRelease (tid : Nat) (s : State) : Out := .next (releaseOldest false tid s)
def execGRelease (tid : Nat) (s : State) : Out := .next (releaseOldest true tid s)

/-- The groups of st in order, each with the groups of its store that follow it and that go before it. -/
def flatGroups (st : List (List StoreGroup)) : List StoreGroup := st.flatten

/-- Remove the i-th of the groups of st. -/
def dropGroup : List (List StoreGroup) → Nat → List (List StoreGroup)
  | [], _ => []
  | g :: r, i =>
    if i < g.length then (let g' := dropAt g i; if g'.isEmpty then r else g' :: r) else g :: dropGroup r (i - g.length)

/-- The groups of the store that holds the i-th group, without it. -/
def sameStore : List (List StoreGroup) → Nat → List StoreGroup
  | [], _ => []
  | g :: r, i => if i < g.length then dropAt g i else sameStore r (i - g.length)

/-- Whether a released group must follow an earlier one: both write a byte, or both are accesses of one lane to SO pages or to its slice, which
the lane keeps in order (04 R94, 09 R200, 11 R246). -/
def StoreGroup.follows (h o : StoreGroup) : Bool :=
  o.near.any (fun b => h.near.any (fun c => c.addr == b.addr))
    || o.far.any (fun b => h.far.any (fun c => c.1 == b.1 && c.2.addr == b.2.addr))
    || (h.lane == o.lane && h.kind == o.kind && h.kind.getLsbD 0)

/-- STORE_PERFORM (06 R134): any released group that need not follow an earlier one. -/
def performOne (tid idx : Nat) (s : State) : State :=
  s.withFocus tid (fun s =>
    match (flatGroups s.me.st)[idx]? with
    | none => s
    | some h =>
      if ((flatGroups s.me.st).take idx).any h.follows then s
      else ({ s with me := { s.me with st := dropGroup s.me.st idx } }).performGroup (some s.me.core) h (sameStore s.me.st idx))

def execStorePerform (tid idx : Nat) (s : State) : Out := .next (performOne tid idx s)

/-- SCATTER_ADD_PERFORM (18 R326): the next element that the Awl has of a thread; the bytes of a scatter group go at once. -/
def addNext (tid : Nat) (s : State) : State :=
  s.withFocus tid (fun s =>
    match s.me.gq with
    | [] => s
    | [] :: r => { s with me := { s.me with gq := r } }
    | (h :: more) :: r =>
      match h.adds with
      | a :: b :: as =>
        ({ s with me := { s.me with gq := ({ h with adds := b :: as } :: more) :: r } }).addAtHome a
      | _ =>
        let left := if more.isEmpty then r else more :: r
        ({ s with me := { s.me with gq := left } }).performGroup none h more)

def execScatterAddPerform (tid : Nat) (s : State) : Out := .next (addNext tid s)

/-- AWL_ROW_FETCH (18 R328): merging and replay of rows change timing only. -/
def execAwlRowFetch (_layer : Nat) (_row : Word) (s : State) : Out := .next s

/-- VALUE_ARRIVE (01 R21): the oldest value on its way. What it depends on has been performed by now (11 R249). -/
def arriveValue (tid : Nat) (s : State) : State :=
  s.withThread tid (fun t =>
    match t.vals with
    | v :: r => (({ t with vals := r } : Thread).loadedNow v.dest s.time).setX v.dest v.value
    | [] => t)

def execValueArrive (tid : Nat) (s : State) : Out := .next (arriveValue tid s)

/-- The oldest rendezvous of the window that has not been done: its place and entry. -/
def Thread.meeting (t : Thread) : Option (Nat × Entry) :=
  (((List.range t.win.length).zip t.win).find? (fun p => p.2.queued && p.2.ops.any EOp.isRendezvous && !p.2.mq && !p.2.complete t))

/-- Groups of a lane that a rendezvous takes up: its own, and for a permute, slide or compress every source group of the lane (06 R128). -/
def Work.shares (t : Thread) (w : Work) (lane : Nat) : List Nat :=
  let own := w.groups t
  let more := match w.op with
    | .vperm _ _ _ _ => List.range (4 * t.lanes * w.vt.group)
    | .vslideUp _ _ _ _ => List.range (4 * t.lanes * w.vt.group)
    | .vslideDn _ _ _ _ => List.range (4 * t.lanes * w.vt.group)
    | _ => []
  (own ++ more).eraseDups.filter (fun g => g % t.lanes == lane)

/-- Whether a replayed rendezvous may go on: every older entry has completed in every lane (04 R96). -/
def State.replayReady (s : State) (k : Nat) (e : Entry) : Bool := !e.replay || (s.me.win.take k).all (fun o => o.complete s.me)

/-- Whether a lane can deliver its part of rendezvous k (06 R128): for a matrix instruction it has completed every earlier one; for the others
it has gone past the earlier ones, and none of them has still to write or read what it takes up there. Its store buffer has room for what a push leaves
there (R135). -/
def State.delivers (s : State) (k : Nat) (e : Entry) (lane : Nat) : Bool :=
  s.replayReady k e && s.storeRoom k e lane && (s.me.olderThan k).all (fun p =>
    if e.op.isMatrix then !p.2.mq && (p.2.works p.1).all (fun o => p.2.slotDone s.me o
      || (!wholeOp o.op && (p.2.pendingGroups s.me o).all (fun g => g % s.me.lanes != lane)))
    else
      !s.streamClash p.2 e && (p.2.works p.1).all (fun o => s.laneFree p.1 p.2 o lane)
        && (e.works k).all (fun w => (w.shares s.me lane).all (s.lets p.1 p.2 e w)))
    && (e.op.isMatrix || (e.works k).all (fun w => (w.shares s.me lane).all (s.orderReady k w) && s.maskReady k w))

/-- Elements of a rendezvous whose port operands a lane takes up (06 R128): the active ones of a reduction or scan, every one of the others. -/
def Work.laneElems (t : Thread) (w : Work) (lane : Nat) : List Nat :=
  ((w.shares t lane).flatMap (groupElems w.vt.perGroup)).filter (fun i => decide (i < w.vl) &&
    (match w.op with
      | .vred _ _ _ _ _ _ => t.kget w.op.mask.1 i
      | .vscan _ _ _ _ _ _ _ => t.kget w.op.mask.1 i
      | _ => true))

/-- Positions of read ports that a lane pops for a rendezvous, which have not been read yet. -/
def State.lanePops (s : State) (w : Work) (lane : Nat) : List (Nat × Nat) :=
  if w.op.isMatrix then []
  else
    (((s.me.popsOf w.op).flatMap (fun n => (w.laneElems s.me lane).filterMap (fun i => (s.me.elemPos w n i).map (fun p => (n, p)))))).eraseDups.filter
      (fun q => decide (q.2 < s.me.portEnd q.1) && !(s.me.stream q.1).ahead.any (fun a => a.1 == q.2))

/-- A position that a lane has popped for a rendezvous: its bytes are kept for it; one that cannot be read faults when the lanes meet (09 R216). -/
def State.popFor (s : State) (w : Work) (lane : Nat) (q : Nat × Nat) : State :=
  match s.popBytes w.place lane w.since q.1 q.2 with
  | .ok l =>
    let reads := s.popReads w.place lane q.1 q.2
    let t := (s.touchReads lane w.since .plain reads).dropReplies (s.farReads lane .plain reads)
    { t with me := t.me.setStream q.1 { t.me.stream q.1 with ahead := (t.me.stream q.1).ahead ++ [(q.2, l)] } }
  | .error _ => s

/-- LANE_DELIVER (06 R128, R129): a lane that can deliver does, once what it pops from a port has arrived. -/
def deliverLane (tid lane : Nat) (s : State) : State :=
  s.onWindow tid (fun s =>
    match s.me.meeting with
    | none => s
    | some (k, e) =>
      if decide (lane < s.me.lanes) && !e.delivered.getLsbD lane && s.delivers k e lane then
        let p := s.keepMask k e
        let w := p.2.work k false p.2.op
        let pops := p.1.lanePops w lane
        if pops.any (fun q => match p.1.popBytes w.place lane w.since q.1 q.2 with | .error .wait => true | _ => false) then p.1.askGroups w (w.groups s.me)
        else (pops.foldl (fun s q => s.popFor w lane q) p.1).withEntry k (fun e => { e with delivered := e.delivered ||| BitVec.twoPow 8 lane })
      else s)

def execLaneDeliver (tid lane : Nat) (s : State) : Out := .next (deliverLane tid lane s)

/-- RENDEZVOUS_DONE (06 R129, 10 R230): once every lane has delivered, or there is no element (09 R216). A matrix instruction enters the matrix
queue of its core, where there is room, as the oldest entry of its thread (10 R231). -/
def meetingDone (tid : Nat) (s : State) : State :=
  s.onWindow tid (fun s =>
    match s.me.meeting with
    | none => s
    | some (k, e) =>
      if !(List.range s.me.lanes).all (fun l => e.delivered.getLsbD l) && !(e.op.isMeeting && e.vl == 0 && s.replayReady k e) then s
      else if e.op.isMatrix then
        let s' := s.retire.releaseHeads k
        if (s'.me.meeting.map (·.1)) == some 0 && decide ((s'.matrixQueue s'.me.core).length < 16) then
          (s'.withEntry 0 (fun e => { e with mq := true })).withCore s'.me.core (fun c => { c with mq := c.mq ++ [s'.me.tid] })
        else s'
      else
        let p := s.keepMask k e
        (p.1.settleRan k p.2 (p.1.underMode p.2 (fun t => t.runMeet k p.2))).1.retire)

def execRendezvousDone (tid : Nat) (s : State) : Out := .next (meetingDone tid s)

/-- The thread whose instruction heads the matrix queue of a core. -/
def State.mqHead (s : State) (core : Nat) : Option Nat := (s.matrixQueue core).head?

/-- Whether the oldest entry of a thread is the one that heads the queue. -/
def Thread.inEngine (t : Thread) : Bool := match t.win.head? with | some e => e.mq && t.active | none => false

/-- MATRIX_ENGINE_START (10 R230): one entry at a time, in order of entry. An entry whose thread traps, is parked or ends has left the queue
(`CoreRec.leave`). -/
def engineStart (core : Nat) (s : State) : State :=
  match s.mqHead core with
  | none => s
  | some tid => if (s.thread tid).any Thread.inEngine then s.withCore core (fun c => { c with engine := true }) else s

def execMatrixEngineStart (core : Nat) (s : State) : Out := .next (engineStart core s)

/-- The engine leaves an instruction. -/
def State.engineDone (s : State) (core : Nat) : State := s.withCore core (fun c => { c with mq := c.mq.drop 1, engine := false })

/-- Whether the engine of a core is running. -/
def State.engineOn (s : State) (core : Nat) : Bool :=
  match s.cores.find? (fun c => c.core == core) with
  | some c => c.engine
  | none => false

/-- Act on the oldest entry of the thread whose instruction the engine of a core runs. -/
def State.onEngine (s : State) (core : Nat) (f : Entry → State → State) : State :=
  match s.mqHead core with
  | none => s
  | some tid =>
    if !s.engineOn core then s
    else s.withFocus tid (fun s =>
      match s.me.win with
      | [] => s
      | e :: _ => if s.me.inEngine then f e s else s)

/-- What an act of the engine leaves (10 R231): a fault is reported with SRC 10 (log 36) and the engine leaves the instruction. -/
def settleEngine (core : Nat) (e : Entry) (after : State → State) : Ran → State
  | .done s' => after s'
  | .wait s' => s'
  | .fail s' i f => ((s'.reportFault (({ e with vstart := i }).trapOf i { f with src := srcMatrix })).withEntry 0 (fun e => { e with mq := false })).engineDone core

/-- One row of a tile instruction, which becomes final (10 R231, R236). -/
def State.runRow (s : State) (w : Work) (i : Nat) : Ran :=
  match s.me.tileTag w with
  | some f => .fail s w.vstart f
  | none =>
    match s.tileRow w i with
    | .error .wait => .wait s
    | .error (.fail f) => .fail s i f
    | .ok s' => .done (s'.withEntry 0 (fun e => { e with vstart := i + 1, map0 := e.map0 ||| BitVec.twoPow 256 i }))

/-- MMA_ROW (10 R231, R236): the next row of the mma in the engine. -/
def mmaNext (core : Nat) (s : State) : State :=
  s.onEngine core (fun e s =>
    match e.op, tileRows (e.work 0 false e.op) with
    | .mma _ _ _ _ _ _ _, i :: _ => settleEngine core e id (s.underMode e (fun s => s.runRow (e.work 0 false e.op) i))
    | _, _ => s)

def execMmaRow (core : Nat) (s : State) : Out := .next (mmaNext core s)

/-- MATRIX_COMPLETE (10 R231): an mma once its rows are final; any other matrix instruction is performed now. -/
def engineComplete (core : Nat) (s : State) : State :=
  s.onEngine core (fun e s =>
    let rowsLeft : Bool := match e.op with
      | .mma _ _ _ _ _ _ _ => !(tileRows (e.work 0 false e.op)).isEmpty
      | _ => false
    if rowsLeft then s
    else settleEngine core e (fun s => ((s.withEntry 0 (fun e => { e with mq := false })).engineDone core).retire)
      (s.underMode e (fun s => s.runMatrix 0 (e.work 0 false e.op))))

def execMatrixComplete (core : Nat) (s : State) : Out := .next (engineComplete core s)

/-- STREAM_PREFETCH (09 R209): a position of a read stream that has not been popped is read; one that cannot be read now is not. -/
def prefetch (tid n pos : Nat) (s : State) : State :=
  s.withFocus tid (fun s =>
    let st := s.me.stream n
    if !s.me.holds || s.me.carry.isSome || !st.opened || st.fib || sdDir st.desc || decide (pos < st.pos ∨ s.me.portEnd n ≤ pos)
        || st.ahead.any (fun a => a.1 == pos) then s
    else
      match s.portAddress 0 0 0 .engine n pos with
      | .error _ => s
      | .ok va =>
        match s.getElem 0 0 0 .engine va (s.me.portSize n) with
        | .error _ => s
        | .ok l =>
          let s := s.touchReads 0 0 .engine (s.popReads 0 0 n pos)
          { s with me := s.me.setStream n { st with ahead := st.ahead ++ [(pos, l)] } })

def execStreamPrefetch (tid stream pos : Nat) (s : State) : Out := .next (prefetch tid stream pos s)

/-- Apply a function n times. -/
def State.times (s : State) (f : State → State) : Nat → State
  | 0 => s
  | n + 1 => (f s).times f n

/-- Perform what every thread has released, where the schedule is the model's own. -/
def State.performAll (s : State) : State :=
  ((s.threads.filter (fun t => !t.st.isEmpty || !t.gq.isEmpty)).map (·.tid)).foldl (fun s n => s.withFocus n State.performReleased) s

/-- The lanes and the matrix engine of the core of the thread in focus move once (log 4): words are broadcast, every group that can be is performed,
lanes meet, the engine runs, entries leave and are released, released stores are performed, values arrive. -/
def State.runWindow (s : State) : State :=
  if s.lag then s
  else
    let n := s.me.win.length
    let me := s.me.tid
    let core := s.me.core
    let s := s.times (broadcastNext me) n
    let s := s.onWindow me (fun s => s.sweep s.pendingWork)
    let s := meetingDone me ((List.range 8).foldl (fun s l => deliverLane me l s) s)
    let s := engineComplete core ((engineStart core s).times (mmaNext core) 32)
    let s := (s.onWindow me (fun s => s.retire.releaseHeads n)).performAll
    s.times (arriveValue me) s.me.vals.length

end Sys2Proof.Machine
end

