-- ==== Sys2Proof/Machine/Auto.lean ====
section
/-!
DEFINITION. What moves when the agenda is empty (log 1): issue of the thread in focus, one internal event, the change of focus.
-/
namespace Sys2Proof.Machine

/-- The state as issue of word w, which is instruction i, leaves it to exec: the word is recorded, the fetch has left its line in the instruction
cache (05 R113) and used its translation (18 R317), time has moved, the registers that i writes depend on what it reads (11 R249), the engines
move next. An ESLOT that says that slot 0 is done means nothing for a word that is no P-form word: all of it issues (02 R44; log 36). -/
def State.issueReady (s : State) (w : Word) (i : Instr) : State :=
  { s.tick (s.time + s.pace) with
    turn := .engine
    mem := ((s.fillCode s.me s.me.pc).hit none s.me.pc).mem
    me := { s.me.depend i (s.time + s.pace) with iw := w, only1 := s.me.only1 && w.extractLsb' 62 2 == 1 } }

/-- The state of a step in which the thread in focus does not issue. -/
def State.noIssue (s : State) : State := { s.tick (s.time + s.pace) with turn := .engine }

/-- The lowest thread number with a property (15 R304). -/
def State.leastTid (s : State) (p : Thread → Bool) : Option Nat :=
  match (s.threads.filter p).map (·.tid) with
  | [] => none
  | a :: r => some (r.foldl min a)

/-- Whether a thread's wait has ended: its event has come, or TIME has reached its deadline. -/
def State.waitOver (s : State) (t : Thread) : Bool :=
  match s.pendingWait t.tid with
  | some (t', w) => (s.testWait w t').isSome || decide (w.deadline ≤ s.time)
  | none => false

def State.autoAdmit (s : State) : Option State := (s.leastTid s.nextAdmitted).map (fun n => takeOn n s)

def State.autoWake (s : State) : Option State :=
  (s.leastTid s.waitOver).map (fun n =>
    match s.pendingWait n with
    | some (t, w) => if (s.testWait w t).isSome then waitEventNow n s else waitDeadlineNow n s
    | none => s)

def State.autoAge (s : State) : Option State :=
  (s.leastTid (fun t => t.queued && t.level != 0 && decide (t.levelSince + (s.cluster t.cluster).aging ≤ s.time))).map (fun n => age n s)

/-- The placement decision of a cluster's keeper, if it places a thread or fixes the cores of a gang (15 R301, R303). -/
def State.placement (s : State) (cl : Nat) : Option State :=
  if (s.queue cl).isEmpty then none
  else
    let s' := placeOne cl s
    if (s'.queue cl).length = (s.queue cl).length ∧ (s'.cluster cl).gangSets = (s.cluster cl).gangSets then none else some s'

def State.autoPlace (s : State) : Option State := (s.clusters.map (·.id)).findSome? s.placement

def State.autoPark (s : State) : Option State :=
  match s.leastTid (fun t => t.holds && s.rival t && s.noneHalted t && t.due == .none
      && decide (t.placedAt + (s.cluster t.cluster).slice ≤ s.time)) with
  | some n => some (endSlice n s)
  | none =>
    (s.clusters.filter (fun c => c.gangSets.any (fun g => decide (g.since + c.slice ≤ s.time)))).findSome? (fun c =>
      let s' := gangWait c.id s
      if (s'.threads.filter Thread.holds).length = (s.threads.filter Thread.holds).length then none else some s')

/-- A thread that stood between the slots of a pair word when it was to be parked or to retire has left them (02 R46, 15 R293, R302). -/
def State.autoDue (s : State) : Option State :=
  match s.leastTid (fun t => t.due == .retire && !t.between) with
  | some n => (s.thread n).map (fun t => s.endLaunch t.lid 2)
  | none => (s.leastTid (fun t => t.holds && t.due == .park && s.canPark t)).map (fun n => s.parkEnter n)

def State.autoTrap (s : State) : Option State :=
  (s.leastTid (fun t => t.holds && t.fault.isSome && !s.halted t.core)).map (fun n => enterHeld n s)

def State.autoCarry (s : State) : Option State := (s.leastTid (fun t => t.holds && t.carry.isSome)).map (fun n => carryLines n s)

/-- Moves that the copy engine of a cluster can make (14 R273 to R276). -/
def State.copyMoves (s : State) (c : Cluster) : List (State → State) :=
  (if c.copies.any (fun x => !x.running) && decide ((c.copies.filter (fun x => x.running)).length < 8) then [startNext c.id] else [])
  ++ (c.copies.filter (fun x => x.running)).flatMap (fun x =>
    let lines := x.lines.filter (fun l => !x.landed.contains l)
    (if x.failed.isSome || (s.copyFault c.id x).isSome then [faultCopy c.id x.id] else [])
    ++ (if x.failed.isSome then [] else lines.map (landLine c.id x.id)) ++ x.members.map (gangTo c.id x.id)
    ++ (if lines.isEmpty && x.members.isEmpty then [completeCopy c.id x.id] else []))

/-- What a Welt unit does next (14 R278 to R281): headers, a row, the record, or the fault. -/
def weltMove (cl : Nat) (s : State) : State :=
  faultWelt cl (completeWelt cl (weltRowStep true cl (weltRowStep false cl (startWelt cl s))))

/-- Moves of the cluster engines; which is taken turns with TIME, so that one that waits holds up no other. -/
def State.engineMoves (s : State) : List (State → State) :=
  s.clusters.flatMap (fun c => s.copyMoves c ++ (if c.welts.isEmpty then [] else [weltMove c.id]))

def State.autoEngine (s : State) : State :=
  match s.engineMoves[s.time % s.engineMoves.length]? with
  | some f => f s
  | none => s

/-- Take the first packet that has arrived. -/
def State.autoPacket (s : State) : Option State :=
  match s.fab.inbox with
  | [] => none
  | (_, p) :: _ =>
    some (match p with
      | .write _ _ _ _ _ => performRemote 0 s
      | .red _ _ _ _ _ _ _ => reduceRemote 0 s
      | .openReq _ => openRequest 0 s
      | .openReply _ _ => openReplied 0 s
      | .flag _ _ _ _ _ => flagArrives 0 s
      | .flagReport _ _ => flagReported 0 s
      | .close _ _ _ => closeRequest 0 s
      | .closeReply _ _ => closeReplied 0 s
      | .marker _ _ _ _ => markerArrives 0 s
      | .echo _ _ _ _ => echoArrives 0 s
      | .loadReq _ => serveLoad 0 s
      | .loadReply _ => landReply 0 s)

/-- The first place of a list with a property. -/
def placeOf {α : Type} (p : α → Bool) (l : List α) : Option Nat :=
  (((List.range l.length).zip l).find? (fun x => p x.2)).map (·.1)

/-- Timeouts of the fabric that TIME has reached (21 R384, R387, R388, R390, R392, R393). -/
def State.autoTimeout (s : State) : Option State :=
  let due (n : Nat) : Bool := decide (n ≤ s.time)
  [ (s.leastTid (fun t => t.remote.any (fun r => r.reply == .none && due (r.sent + t.fto.toNat)))).map (fun n => loadTimeout n s),
    (s.leastTid (fun t => match t.ask with | .openChan _ n => due (n + t.fto.toNat) | _ => false)).map (fun n => openTimeout n s),
    (s.leastTid (fun t => match t.ask with | .sweeping n l _ => !l.isEmpty && due (n + t.fto.toNat) | _ => false)).map (fun n => sweepTimeout n s),
    (s.fab.senders.find? (fun c => match c.closing with | some n => due (n + s.ftoOf c.tid) | none => false)).map (fun c => closeTimeout c.tid s),
    (s.fab.senders.find? (fun c => match c.flags with | f :: _ => due (f.2 + s.ftoOf c.tid) | [] => false)).map (fun c => flagExpires c.chan s),
    (placeOf (fun (r : Receiver) => match r.flags with | f :: _ => due (f.arrived + f.bto) | [] => false) s.fab.receivers).map (fun i => flagShort i s),
    (placeOf (fun (r : Receiver) => match r.close with | some (_, b, a) => due (a + b) | none => false) s.fab.receivers).map (fun i => closeShort i s),
    (placeOf (fun (m : Marker) => due (m.arrived + m.bto)) s.fab.markers).map (fun i => markerShort i s) ].findSome? id

/-- The close of a channel whose thread has gone leaves once nothing it has to wait for is left (21 R392). -/
def State.autoClose (s : State) : Option State := (s.fab.senders.find? s.closable).map (fun c => closeGone c s)

/-- Whether a cluster's caps can still be lowered (19 R335). -/
def State.canLower (s : State) (c : Cluster) : Bool := c.lbcap != s.laneCount c.id || decide (4 < c.thermal)

/-- Firmware power control (19 R335): a layer with a sensor at 118 degrees or above goes to its lowest caps at once; a cluster of a layer above 105 degrees,
or any while the package is over its limit, is lowered one step. The voltage is lowered by the events of the agenda alone. -/
def State.autoPower (s : State) : Option State :=
  match (List.range 8).find? (fun l => s.power.sensors.any (fun x => x.1 == l && decide (1888 ≤ x.2.2.toInt))
      && s.clusters.any (fun c => c.id / 12 == l && (c.lbcap != s.laneCount c.id || c.thermal != 4))) with
  | some l => some (emergency l s)
  | none =>
    (s.clusters.find? (fun c => (s.overPower || s.layerHot (c.id / 12)) && s.canLower c)).map (fun c =>
      control c.id true (s.laneCount c.id) (BitVec.allOnes 16) s)

/-- A mailbox command that waits completes once it can (20 R357, R359, R365). -/
def State.autoMailbox (s : State) : Option State :=
  let go (act : State → State) : Option State := if (act s).host.busy then none else some (act s)
  if !s.host.busy || s.host.stopped then none
  else
    match s.host.cmd.toNat with
    | 2 => go invalNow
    | 4 => go fwactNow
    | 6 => go quiesceNow
    | _ => none

def State.autoFinish (s : State) : Option State := (s.launches.find? s.launchDone).map (fun l => completeLaunch l.lid s)

/-- The first internal event that can happen, in the order of 15 R304, then packets, timeouts, completion of launches and of mailbox commands. Power control comes first: it acts
within 100 microseconds (19 R335). -/
def State.autoFirst (s : State) : Option State :=
  [State.autoPower, State.autoAdmit, State.autoWake, State.autoAge, State.autoPlace, State.autoPark, State.autoDue, State.autoTrap, State.autoCarry,
    State.autoPacket, State.autoTimeout, State.autoClose, State.autoFinish, State.autoMailbox].findSome? (fun f => f s)

/-- One internal event of the package; else a cluster engine moves. The window of the thread in focus runs on. -/
def State.autoEvent (s : State) : State := (s.autoFirst.getD s.autoEngine).runWindow

/-- A DBGCTL.STEP of the core that has not issued its word names the context of the thread in focus (04 R111). -/
def State.stepping (s : State) : Bool := s.cores.any (fun c => c.core == s.me.core && c.stepping && c.cx.toNat == s.me.ctx)

/-- Whether a word of the thread in focus may be fetched and issued now: it runs, issue is not halted (a halt waits for the end of a word,
04 R112), no fault waits for trap entry, it is not
about to be parked or to retire, its scratchpad lines have been carried over, gang data that came while it was parked are delivered (14 R276). -/
def State.mayIssue (s : State) : Bool :=
  s.me.status == .running && (!s.halted s.me.core || s.stepping || s.me.between) && s.me.fault.isNone && (s.me.due == .none || s.me.only1) && s.me.carry.isNone
    && !s.gangDue s.me

/-- Branches and jumps: their words never wait, and may leave the pc as it was. -/
def jumps : Instr → Bool
  | .beq _ _ _ | .bne _ _ _ | .bltI64 _ _ _ | .bgeI64 _ _ _ | .bltN64 _ _ _ | .bgeN64 _ _ _ | .jal _ _ | .jalLong _ _ | .jalr _ _ _ => true
  | _ => false

/-- Whether the word of the thread in focus has issued whole between two states: any but a branch or a jump moves the pc, enters or leaves a trap
handler, or stops the thread. -/
def State.wordDone (s : State) (jump : Bool) (t : State) : Bool :=
  jump || t.me.pc != s.me.pc || t.me.tip != s.me.tip || t.me.status != s.me.status

/-- A step of the core of the thread in focus (04 R111) is used up by the word that issued, not by one that waits. -/
def State.stepUsed (s : State) (jump : Bool) (t : State) : State :=
  if s.stepping && s.wordDone jump t then { t with cores := t.cores.map (fun c => if c.core == s.me.core then { c with stepping := false } else c) } else t

/-- Whether a running thread has an issuable instruction (01 R27); a word whose fetch fails issues as the trap it takes. -/
noncomputable def State.couldIssue (s : State) (t : Thread) : Bool :=
  let f := { s with me := t }
  f.mayIssue && (match f.fetchAt t.pc with | .error _ => true | .ok w => t.issuable (decodeFetched w))

/-- A thread that could issue and has been passed over for 63 turns of its core (01 R27). -/
noncomputable def State.overdue (s : State) (t : Thread) : Bool := s.couldIssue t && decide (63 ≤ t.passed)

/-- Whether a thread that could issue leaves the slot to another context of its core (01 R27): to one passed over for 63 turns, else
to one of a stricter level. -/
noncomputable def State.leavesSlot (s : State) (t : Thread) : Bool :=
  s.couldIssue t && !s.overdue t
    && s.threads.any (fun o => o.core == t.core && s.couldIssue o && (s.overdue o || decide (o.level < t.level)))

/-- The turns a thread has been passed over for in a row, when a thread of a core has taken the slot. -/
noncomputable def State.countPass (s : State) (core : Nat) (t : Thread) : Thread :=
  if t.core = core then { t with passed := if s.couldIssue t then t.passed + 1 else 0 } else t

/-- Bring the next running thread into focus, if there is one; the thread that was in focus goes last. Threads take turns but for those
that leave the slot to another context of their core. -/
noncomputable def State.rotate (s : State) : State :=
  match s.others.find? (fun t => (t.status == .running || t.status == .waiting) && !s.leavesSlot t) with
  | none => if s.leavesSlot s.me then s else { s with others := s.others.map (s.countPass s.me.core), me := { s.me with passed := 0 } }
  | some t =>
    { s with
      me := { t with passed := 0 }
      others := ((s.others.filter (fun o => o.tid != t.tid)) ++ [s.me]).map (s.countPass t.core) }

/-- Whether the package takes an event of the agenda: without power only a cold reset (19 R340). -/
def State.hears (s : State) (i : Instr) : Bool :=
  match i with
  | .coldReset => true
  | _ => s.powered

end Sys2Proof.Machine
end

