-- ==== Sys2Proof/Machine/Csr.lean ====
section
/-!
DEFINITION. Control and status registers: assigned numbers, reads, writes, and the five access forms (01 R16 to R18, 03 R89, R90,
04 R97 to R100, 14 R271, 19 R330, 21 R377).
-/
namespace Sys2Proof.Machine

/-- Assigned CSR numbers (01 R16). -/
def csrAssigned (n : Nat) : Bool :=
  decide (n ≤ 0x005 ∨ (0x100 ≤ n ∧ n ≤ 0x104) ∨ (0x200 ≤ n ∧ n ≤ 0x208) ∨ (0x300 ≤ n ∧ n ≤ 0x309) ∨ (0x400 ≤ n ∧ n ≤ 0x406)
    ∨ n = 0x500 ∨ n = 0x501 ∨ (0x510 ≤ n ∧ n ≤ 0x53C))

/-- Blocks that only a supervisor reaches (01 R15, R16). -/
def csrPrivileged (n : Nat) : Bool := decide (0x300 ≤ n ∧ n < 0x500)

/-- PLACE (01 R18). -/
def State.placeWord (s : State) : Word :=
  BitVec.ofNat 64 (s.pkgnum.toNat * 2 ^ 32 + s.me.core / 192 % 8 * 2 ^ 28 + s.me.core / 16 % 12 * 2 ^ 24 + s.me.core % 16 * 2 ^ 20
    + s.me.ctx % 4 * 2 ^ 16 + s.me.lmask.toNat)

/-- VLGRANT (06 R116). -/
def Thread.grantWord (t : Thread) : Word := BitVec.ofNat 64 (t.lmask.toNat * 256 + t.lanes)

/-- ESTATUS (04 R100). -/
def Thread.estatus (t : Thread) : Word := BitVec.ofNat 64 (t.psup.toNat + 2 * t.tip.toNat + 4 * t.held.toNat)

/-- LNKSTAT and XOSTAT (21 R377). -/
def Link.status (l : Link) : Word :=
  l.naks ++ l.rtrn ++ 0#28 ++ BitVec.ofBool l.lossy ++ l.state ++ BitVec.ofBool l.insvc
def Port.status (p : Port) : Word := p.drop ++ 0#31 ++ BitVec.ofBool p.up

/-- The value of a CSR but CEGO. -/
def State.csrValue (s : State) (n : Nat) : Word :=
  let t := s.me
  let cl := s.cluster t.cluster
  match n with
  | 0x000 => t.fcsr
  | 0x001 => BitVec.ofNat 64 s.time
  | 0x002 => BitVec.ofNat 64 (t.tid % 2 ^ 24)
  | 0x003 => s.placeWord
  | 0x004 => t.crew.setWidth 64
  | 0x005 => s.fver
  | 0x100 => BitVec.ofNat 64 t.vl
  | 0x101 => t.vtype.word
  | 0x102 => t.vstart
  | 0x103 => t.grantWord
  | 0x104 => BitVec.ofNat 64 (t.rows.toNat + 256 * t.cols.toNat)
  | 0x300 => t.epc
  | 0x301 => t.ecause
  | 0x302 => t.einfo
  | 0x303 => t.eaddr
  | 0x304 => t.eslot.setWidth 64
  | 0x305 => t.estream
  | 0x306 => t.bto
  | 0x307 => t.fto
  | 0x308 => t.tvec
  | 0x309 => t.estatus
  | 0x400 => cl.flashchr.setWidth 64
  | 0x401 => BitVec.ofNat 64 cl.lbudget
  | 0x402 => cl.flashapp.setWidth 64
  | 0x403 => cl.flashcap.setWidth 64
  | 0x404 => BitVec.ofNat 64 cl.lbcap
  | 0x405 => BitVec.ofNat 64 (s.lbEff t.cluster)
  | 0x406 => s.slack
  | 0x500 => 0x5C091536
  | 0x501 => BitVec.ofNat 64 s.capBase
  | 0x53A => s.pkgnum.setWidth 64
  | 0x53B => s.fab.podcfg
  | 0x53C => s.fab.rdrop.setWidth 64
  | n =>
    if 0x200 ≤ n ∧ n ≤ 0x207 then t.ce.toList.getD (n - 0x200) 0
    else if 0x510 ≤ n ∧ n ≤ 0x52F then ((s.fab.links.toList[n - 0x510]?).map Link.status).getD 0
    else if 0x530 ≤ n ∧ n ≤ 0x539 then ((s.fab.ports.toList[n - 0x530]?).map Port.status).getD 0
    else 0

/-- Bits of a copy shadow that can be written (14 R271). -/
def shadowMask (n : Nat) : Word :=
  if n = 2 then 0x1FFFFFF else if n = 4 then 0x1FFFF else if n = 5 then 0x3FF else BitVec.allOnes 64

/-- FLASHCHR, LBUDGET and SLACK written with a value (19 R330, R331, R342). -/
def State.writeFlashchr (s : State) (v : Word) : State :=
  s.withCluster s.me.cluster (fun c => { c with flashchr := v.extractLsb' 0 16 })
def State.writeLbudget (s : State) (v : Word) : State :=
  let most := 4 * s.laneCount s.me.cluster
  s.withCluster s.me.cluster (fun c => { c with lbudget := max 1 (min (v.extractLsb' 0 10).toNat most) })
def State.writeSlack (s : State) (v : Word) : State :=
  { s with
    slack := v &&& 0xFFFF
    power := { s.power with slackSum := s.power.slackSum + (v.extractLsb' 0 16).toInt, slackCount := s.power.slackCount + 1 } }

/-- Write a CSR: a write to a read-only register or field is ignored (00 R5, 01 R16). -/
def State.writeCsr (s : State) (n : Nat) (v : Word) : State :=
  let t := s.me
  let set (t : Thread) : State := { s with me := t }
  match n with
  | 0x000 => set { t with fz := v.getLsbD 7, rm := v.extractLsb' 5 2, flags := Flags.ofBits (v.extractLsb' 0 5) }
  | 0x102 => set { t with vstart := v }
  | 0x300 => set { t with epc := v &&& ~~~7 }
  | 0x301 => set { t with ecause := v &&& 0x3FF }
  | 0x302 => set { t with einfo := v }
  | 0x303 => set { t with eaddr := v }
  | 0x304 => set { t with eslot := if v.getLsbD 1 then v.extractLsb' 0 2 else 0 }
  | 0x305 => set { t with estream := v &&& 0xC0000003FFFFFFFF }
  | 0x306 => set { t with bto := v }
  | 0x307 => set { t with fto := v }
  | 0x308 => set { t with tvec := v &&& ~~~7 }
  | 0x309 => set { t with psup := v.getLsbD 0, tip := v.getLsbD 1 }
  | 0x400 => s.writeFlashchr v
  | 0x401 => s.writeLbudget v
  | 0x406 => s.writeSlack v
  | n =>
    if h : 0x200 ≤ n ∧ n ≤ 0x207 then set { t with ce := t.ce.set (n - 0x200) (v &&& shadowMask (n - 0x200)) (by omega) } else s

/-- What a form writes, if it writes (03 R89). -/
def CsrOp.written (op : CsrOp) (old x : Word) : Option Word :=
  match op with
  | .r => none
  | .w | .rw => some x
  | .s => some (old ||| x)
  | .c => some (old &&& ~~~x)

/-- A CSR access (03 R89, R90): the assignment check before the privilege check (01 R16); FCSR and VSTART wait for earlier
execute-class instructions, FCSR for the additions of a released scatter-add too (07 R148, 18 R326); a read of CEGO starts a copy, csrw of it starts nothing. -/
def csrAccess (op : CsrOp) (d : XReg) (n : Nat) (a : XReg) (s : State) : Out :=
  if !csrAssigned n then trapA s cIllegal 0 0
  else if csrPrivileged n && s.me.priv != .sup then trapA s cPrivilege 0 (BitVec.ofNat 64 n)
  else if (n = 0x000 ∨ n = 0x102) ∧ !s.me.held ∧ !s.me.win.isEmpty then stall s
  else if n = 0x000 ∧ s.me.gq.any (fun g => g.any (fun h => !h.adds.isEmpty)) then stall s
  else if n = 0x208 then
    match op with
    | .w => .next s.bump
    | _ => finish s.startCopy.2 d s.startCopy.1
  else
    let old := s.csrValue n
    let s' := match CsrOp.written op old (s.getX a) with
      | some v => s.writeCsr n v
      | none => s
    match op with
    | .w => .next s'.bump
    | _ => finish s' d old

def execCsrr (d : XReg) (csr : BitVec 12) (s : State) : Out := csrAccess .r d csr.toNat 0 s
def execCsrw (csr : BitVec 12) (a : XReg) (s : State) : Out := csrAccess .w 0 csr.toNat a s
def execCsrrw (d : XReg) (csr : BitVec 12) (a : XReg) (s : State) : Out := csrAccess .rw d csr.toNat a s
def execCsrs (d : XReg) (csr : BitVec 12) (a : XReg) (s : State) : Out := csrAccess .s d csr.toNat a s
def execCsrc (d : XReg) (csr : BitVec 12) (a : XReg) (s : State) : Out := csrAccess .c d csr.toNat a s

/-- FCSR_ACCESS and VSTART_ACCESS (03 R90): one of the five forms on that register. -/
def execFcsrAccess (op : CsrOp) (d a : XReg) (s : State) : Out := csrAccess op d 0x000 a s
def execVstartAccess (op : CsrOp) (d a : XReg) (s : State) : Out := csrAccess op d 0x102 a s

/-- FLASHCHR_WRITE, LBUDGET_WRITE and SLACK_WRITE: the write itself, as the CSR forms perform it. -/
def execFlashchrWrite (v : Word) (s : State) : Out := .next (s.writeFlashchr v)
def execLbudgetWrite (v : Word) (s : State) : Out := .next (s.writeLbudget v)
def execSlackWrite (v : Word) (s : State) : Out := .next (s.writeSlack v)

end Sys2Proof.Machine
end

