-- ==== Sys2Proof/Machine/Vector.lean ====
section
/-!
DEFINITION. The execute-class instructions that act through the window alone (08 R173 to R190, 09 R194 to R224, 10 R225 to R239, 18
R321 to R328): one meaning each, over the shared issue.
-/
namespace Sys2Proof.Machine

def execVaddFp (ty : Ty) (m : Mask) (rms : Rms) (d a : VReg) (b : VSrc) (s : State) : Out := issueVector s (.vaddFp ty m rms d a b)
def execVsubFp (ty : Ty) (m : Mask) (rms : Rms) (d a : VReg) (b : VSrc) (s : State) : Out := issueVector s (.vsubFp ty m rms d a b)
def execVmulFp (ty : Ty) (m : Mask) (rms : Rms) (d a : VReg) (b : VSrc) (s : State) : Out := issueVector s (.vmulFp ty m rms d a b)
def execVdiv (ty : Ty) (m : Mask) (rms : Rms) (d a : VReg) (b : VSrc) (s : State) : Out := issueVector s (.vdiv ty m rms d a b)
def execVsqrt (ty : Ty) (m : Mask) (rms : Rms) (d a : VReg) (s : State) : Out := issueVector s (.vsqrt ty m rms d a)
def execVfma (ty : Ty) (m : Mask) (rms : Rms) (d a : VReg) (b : VSrc) (s : State) : Out := issueVector s (.vfma ty m rms d a b)
def execVfnma (ty : Ty) (m : Mask) (rms : Rms) (d a : VReg) (b : VSrc) (s : State) : Out := issueVector s (.vfnma ty m rms d a b)
def execVminFp (ty : Ty) (m : Mask) (rms : Rms) (d a : VReg) (b : VSrc) (s : State) : Out := issueVector s (.vminFp ty m rms d a b)
def execVmaxFp (ty : Ty) (m : Mask) (rms : Rms) (d a : VReg) (b : VSrc) (s : State) : Out := issueVector s (.vmaxFp ty m rms d a b)
def execVcmpFp (pr : Pred) (ty : Ty) (m : Mask) (d : KReg) (a : VReg) (b : VSrc) (s : State) : Out := issueVector s (.vcmpFp pr ty m d a b)
def execVsgn (ty : Ty) (m : Mask) (d a : VReg) (b : VSrc) (s : State) : Out := issueVector s (.vsgn ty m d a b)
def execVsgnn (ty : Ty) (m : Mask) (d a : VReg) (b : VSrc) (s : State) : Out := issueVector s (.vsgnn ty m d a b)
def execVsgnx (ty : Ty) (m : Mask) (d a : VReg) (b : VSrc) (s : State) : Out := issueVector s (.vsgnx ty m d a b)
def execVscl (inv : Bool) (ty : Ty) (m : Mask) (d a : VReg) (b : EReg) (s : State) : Out := issueVector s (.vscl inv ty m d a b)
def execVaddInt (ty : Ty) (m : Mask) (d a : VReg) (b : VSrc) (s : State) : Out := issueVector s (.vaddInt ty m d a b)
def execVsubInt (ty : Ty) (m : Mask) (d a : VReg) (b : VSrc) (s : State) : Out := issueVector s (.vsubInt ty m d a b)
def execVaddSat (ty : Ty) (m : Mask) (d a : VReg) (b : VSrc) (s : State) : Out := issueVector s (.vaddSat ty m d a b)
def execVsubSat (ty : Ty) (m : Mask) (d a : VReg) (b : VSrc) (s : State) : Out := issueVector s (.vsubSat ty m d a b)
def execVmulInt (ty : Ty) (m : Mask) (d a : VReg) (b : VSrc) (s : State) : Out := issueVector s (.vmulInt ty m d a b)
def execVmulh (ty : Ty) (m : Mask) (d a : VReg) (b : VSrc) (s : State) : Out := issueVector s (.vmulh ty m d a b)
def execVmadd (ty : Ty) (m : Mask) (d a : VReg) (b : VSrc) (s : State) : Out := issueVector s (.vmadd ty m d a b)
def execVminInt (ty : Ty) (m : Mask) (d a : VReg) (b : VSrc) (s : State) : Out := issueVector s (.vminInt ty m d a b)
def execVmaxInt (ty : Ty) (m : Mask) (d a : VReg) (b : VSrc) (s : State) : Out := issueVector s (.vmaxInt ty m d a b)
def execVcmpInt (pr : Pred) (ty : Ty) (m : Mask) (d : KReg) (a : VReg) (b : VSrc) (s : State) : Out := issueVector s (.vcmpInt pr ty m d a b)
def execVsll (ty : Ty) (m : Mask) (d a : VReg) (b : VSrc) (s : State) : Out := issueVector s (.vsll ty m d a b)
def execVsrl (ty : Ty) (m : Mask) (d a : VReg) (b : VSrc) (s : State) : Out := issueVector s (.vsrl ty m d a b)
def execVsra (ty : Ty) (m : Mask) (d a : VReg) (b : VSrc) (s : State) : Out := issueVector s (.vsra ty m d a b)
def execVid (ty : Ty) (m : Mask) (d : VReg) (s : State) : Out := issueVector s (.vid ty m d)
def execVand (m : Mask) (d a : VReg) (b : VSrc) (s : State) : Out := issueVector s (.vand m d a b)
def execVor (m : Mask) (d a : VReg) (b : VSrc) (s : State) : Out := issueVector s (.vor m d a b)
def execVxor (m : Mask) (d a : VReg) (b : VSrc) (s : State) : Out := issueVector s (.vxor m d a b)
def execVmv (m : Mask) (d a : VReg) (s : State) : Out := issueVector s (.vmv m d a)
def execKand (d a b : KReg) (s : State) : Out := issueVector s (.kand d a b)
def execKor (d a b : KReg) (s : State) : Out := issueVector s (.kor d a b)
def execKxor (d a b : KReg) (s : State) : Out := issueVector s (.kxor d a b)
def execKandn (d a b : KReg) (s : State) : Out := issueVector s (.kandn d a b)
def execKnot (d a : KReg) (s : State) : Out := issueVector s (.knot d a)
def execKset (d : KReg) (s : State) : Out := issueVector s (.kset d)
def execVbcast (ty : Ty) (m : Mask) (d : VReg) (a : XReg) (s : State) : Out := issueVector s (.vbcast ty m d a)
def execVmvx (ty : Ty) (d : XReg) (a : VReg) (b : XReg) (s : State) : Out := issueVector s (.vmvx ty d a b)
def execVcvt (m : Mask) (rms : Rms) (part : BitVec 4) (dst src : Ty) (d a : VReg) (s : State) : Out := issueVector s (.vcvt m rms part dst src d a)
def execVsegmax (ty : Ty) (k : KReg) (d : EReg) (a : VReg) (s : State) : Out := issueVector s (.vsegmax ty k d a)
def execVsalsel (pat : SalPat) (ty : Ty) (m : Mask) (d : KReg) (a b : VReg) (s : State) : Out := issueVector s (.vsalsel pat ty m d a b)
def execVrngN32 (m : Mask) (d : VReg) (a b : XReg) (s : State) : Out := issueVector s (.vrngN32 m d a b)
def execVld (ty : Ty) (m : Mask) (d : VReg) (a : XReg) (off : Imm19) (s : State) : Out := issueVector s (.vld ty m d a off)
def execVst (ty : Ty) (k : KReg) (fl : Bool) (d : VReg) (a : XReg) (off : Imm19) (s : State) : Out := issueVector s (.vst ty k fl d a off)
def execVlds (ty : Ty) (m : Mask) (d : VReg) (a b : XReg) (off : Imm19) (s : State) : Out := issueVector s (.vlds ty m d a b off)
def execVsts (ty : Ty) (k : KReg) (fl : Bool) (d : VReg) (a b : XReg) (off : Imm19) (s : State) : Out := issueVector s (.vsts ty k fl d a b off)
def execVldx (ty : Ty) (m : Mask) (d : VReg) (a : XReg) (b : VReg) (sh : BitVec 4) (off : BitVec 15) (s : State) : Out := issueVector s (.vldx ty m d a b sh off)
def execVstx (ty : Ty) (k : KReg) (fl : Bool) (d : VReg) (a : XReg) (b : VReg) (sh : BitVec 4) (off : BitVec 15) (s : State) : Out := issueVector s (.vstx ty k fl d a b sh off)
def execVgath (ty : Ty) (m : Mask) (d : VReg) (a : XReg) (b : VReg) (sh : BitVec 5) (re : BitVec 12) (s : State) : Out := issueVector s (.vgath ty m d a b sh re)
def execVscat (ty : Ty) (k : KReg) (d : VReg) (a : XReg) (b : VReg) (sh : BitVec 5) (re : BitVec 12) (s : State) : Out := issueVector s (.vscat ty k d a b sh re)
def execVscadd (ty : Ty) (k : KReg) (d : VReg) (a : XReg) (b : VReg) (sh : BitVec 5) (re : BitVec 12) (s : State) : Out := issueVector s (.vscadd ty k d a b sh re)
def execSadv (n : BitVec 2) (a : XReg) (s : State) : Out := issueVector s (.sadv n a)
def execStend (d : XReg) (n : BitVec 2) (s : State) : Out := issueVector s (.stend d n)
def execSclose (n : BitVec 2) (s : State) : Out := issueVector s (.sclose n)
def execFadv (n : BitVec 2) (s : State) : Out := issueVector s (.fadv n)
def execFtend (d : XReg) (n : BitVec 2) (s : State) : Out := issueVector s (.ftend d n)
def execFclose (n : BitVec 2) (s : State) : Out := issueVector s (.fclose n)
def execVgamRd (d : XReg) (a : VReg) (s : State) : Out := issueVector s (.vgamRd d a)
def execVgamWr (d : VReg) (a : XReg) (s : State) : Out := issueVector s (.vgamWr d a)
def execVred (op : ROp) (ty : Ty) (k : KReg) (d : XReg) (a : VReg) (b : XReg) (s : State) : Out := issueVector s (.vred op ty k d a b)
def execVscan (op : ROp) (ex : Bool) (ty : Ty) (m : Mask) (d a : VReg) (b : XReg) (s : State) : Out := issueVector s (.vscan op ex ty m d a b)
def execVperm (m : Mask) (d a b : VReg) (s : State) : Out := issueVector s (.vperm m d a b)
def execVslideUp (m : Mask) (d a : VReg) (b : XReg) (s : State) : Out := issueVector s (.vslideUp m d a b)
def execVslideDn (m : Mask) (d a : VReg) (b : XReg) (s : State) : Out := issueVector s (.vslideDn m d a b)
def execVcompress (k : KReg) (d a : VReg) (s : State) : Out := issueVector s (.vcompress k d a)
def execKpopc (d : XReg) (a : KReg) (s : State) : Out := issueVector s (.kpopc d a)
def execKfirst (d : XReg) (a : KReg) (s : State) : Out := issueVector s (.kfirst d a)
def execPlpack (ty : Ty) (k : KReg) (fl : Bool) (p : BitVec 4) (d : VReg) (a : XReg) (b : EReg) (c : XReg) (s : State) : Out := issueVector s (.plpack ty k fl p d a b c)
def execPlunpk (m : Mask) (p : BitVec 4) (d : VReg) (a c : XReg) (s : State) : Out := issueVector s (.plunpk m p d a c)
def execMma (pa pb : BitVec 4) (ser : Bool) (d : MReg) (a b c : XReg) (s : State) : Out := issueVector s (.mma pa pb ser d a b c)
def execMzero (d : MReg) (s : State) : Out := issueVector s (.mzero d)
def execMld (d : MReg) (a b : XReg) (off : Imm19) (s : State) : Out := issueVector s (.mld d a b off)
def execMst (d : MReg) (a b : XReg) (off : Imm19) (s : State) : Out := issueVector s (.mst d a b off)

end Sys2Proof.Machine
end

