-- ==== Sys2Proof/Machine/Dispatch.lean ====
section
/-!
DEFINITION. exec: one arm for each constructor of Instr, each a direct call of its meaning.
-/
namespace Sys2Proof.Machine

def exec (i : Instr) (s : State) : Host.Outcome State Fault Refusal :=
  match i with
  | .add d a b => Sys2Proof.Machine.execAdd d a b s
  | .addImm d a imm => Sys2Proof.Machine.execAddImm d a imm s
  | .addImmLong d a imm => Sys2Proof.Machine.execAddImmLong d a imm s
  | .sub d a b => Sys2Proof.Machine.execSub d a b s
  | .and d a b => Sys2Proof.Machine.execAnd d a b s
  | .andImm d a imm => Sys2Proof.Machine.execAndImm d a imm s
  | .andImmLong d a imm => Sys2Proof.Machine.execAndImmLong d a imm s
  | .or d a b => Sys2Proof.Machine.execOr d a b s
  | .orImm d a imm => Sys2Proof.Machine.execOrImm d a imm s
  | .orImmLong d a imm => Sys2Proof.Machine.execOrImmLong d a imm s
  | .xor d a b => Sys2Proof.Machine.execXor d a b s
  | .xorImm d a imm => Sys2Proof.Machine.execXorImm d a imm s
  | .xorImmLong d a imm => Sys2Proof.Machine.execXorImmLong d a imm s
  | .andn d a b => Sys2Proof.Machine.execAndn d a b s
  | .orn d a b => Sys2Proof.Machine.execOrn d a b s
  | .xnor d a b => Sys2Proof.Machine.execXnor d a b s
  | .sll d a b => Sys2Proof.Machine.execSll d a b s
  | .sllImm d a sh => Sys2Proof.Machine.execSllImm d a sh s
  | .srl d a b => Sys2Proof.Machine.execSrl d a b s
  | .srlImm d a sh => Sys2Proof.Machine.execSrlImm d a sh s
  | .sra d a b => Sys2Proof.Machine.execSra d a b s
  | .sraImm d a sh => Sys2Proof.Machine.execSraImm d a sh s
  | .rol d a b => Sys2Proof.Machine.execRol d a b s
  | .rolImm d a sh => Sys2Proof.Machine.execRolImm d a sh s
  | .ror d a b => Sys2Proof.Machine.execRor d a b s
  | .rorImm d a sh => Sys2Proof.Machine.execRorImm d a sh s
  | .minI64 d a b => Sys2Proof.Machine.execMinI64 d a b s
  | .minI64Imm d a imm => Sys2Proof.Machine.execMinI64Imm d a imm s
  | .maxI64 d a b => Sys2Proof.Machine.execMaxI64 d a b s
  | .maxI64Imm d a imm => Sys2Proof.Machine.execMaxI64Imm d a imm s
  | .minN64 d a b => Sys2Proof.Machine.execMinN64 d a b s
  | .minN64Imm d a imm => Sys2Proof.Machine.execMinN64Imm d a imm s
  | .maxN64 d a b => Sys2Proof.Machine.execMaxN64 d a b s
  | .maxN64Imm d a imm => Sys2Proof.Machine.execMaxN64Imm d a imm s
  | .sltI64 d a b => Sys2Proof.Machine.execSltI64 d a b s
  | .sltI64Imm d a imm => Sys2Proof.Machine.execSltI64Imm d a imm s
  | .sltN64 d a b => Sys2Proof.Machine.execSltN64 d a b s
  | .sltN64Imm d a imm => Sys2Proof.Machine.execSltN64Imm d a imm s
  | .seq d a b => Sys2Proof.Machine.execSeq d a b s
  | .seqImm d a imm => Sys2Proof.Machine.execSeqImm d a imm s
  | .add32 d a b => Sys2Proof.Machine.execAdd32 d a b s
  | .add32Imm d a imm => Sys2Proof.Machine.execAdd32Imm d a imm s
  | .sub32 d a b => Sys2Proof.Machine.execSub32 d a b s
  | .sll32 d a b => Sys2Proof.Machine.execSll32 d a b s
  | .sll32Imm d a sh => Sys2Proof.Machine.execSll32Imm d a sh s
  | .srl32 d a b => Sys2Proof.Machine.execSrl32 d a b s
  | .srl32Imm d a sh => Sys2Proof.Machine.execSrl32Imm d a sh s
  | .sra32 d a b => Sys2Proof.Machine.execSra32 d a b s
  | .sra32Imm d a sh => Sys2Proof.Machine.execSra32Imm d a sh s
  | .mul d a b => Sys2Proof.Machine.execMul d a b s
  | .mulhI64 d a b => Sys2Proof.Machine.execMulhI64 d a b s
  | .mulhN64 d a b => Sys2Proof.Machine.execMulhN64 d a b s
  | .mul32 d a b => Sys2Proof.Machine.execMul32 d a b s
  | .divI64 d a b => Sys2Proof.Machine.execDivI64 d a b s
  | .divN64 d a b => Sys2Proof.Machine.execDivN64 d a b s
  | .remI64 d a b => Sys2Proof.Machine.execRemI64 d a b s
  | .remN64 d a b => Sys2Proof.Machine.execRemN64 d a b s
  | .clz d a => Sys2Proof.Machine.execClz d a s
  | .ctz d a => Sys2Proof.Machine.execCtz d a s
  | .popc d a => Sys2Proof.Machine.execPopc d a s
  | .rev8 d a => Sys2Proof.Machine.execRev8 d a s
  | .brev d a => Sys2Proof.Machine.execBrev d a s
  | .sext8 d a => Sys2Proof.Machine.execSext8 d a s
  | .sext16 d a => Sys2Proof.Machine.execSext16 d a s
  | .sext32 d a => Sys2Proof.Machine.execSext32 d a s
  | .zext8 d a => Sys2Proof.Machine.execZext8 d a s
  | .zext16 d a => Sys2Proof.Machine.execZext16 d a s
  | .zext32 d a => Sys2Proof.Machine.execZext32 d a s
  | .sel d a b c => Sys2Proof.Machine.execSel d a b c s
  | .madd d a b c => Sys2Proof.Machine.execMadd d a b c s
  | .li d imm => Sys2Proof.Machine.execLi d imm s
  | .liLong d imm => Sys2Proof.Machine.execLiLong d imm s
  | .lih d imm => Sys2Proof.Machine.execLih d imm s
  | .lpc d imm => Sys2Proof.Machine.execLpc d imm s
  | .lpcLong d imm => Sys2Proof.Machine.execLpcLong d imm s
  | .faddF64 rms d a b => Sys2Proof.Machine.execFaddF64 rms d a b s
  | .faddF32 rms d a b => Sys2Proof.Machine.execFaddF32 rms d a b s
  | .fsubF64 rms d a b => Sys2Proof.Machine.execFsubF64 rms d a b s
  | .fsubF32 rms d a b => Sys2Proof.Machine.execFsubF32 rms d a b s
  | .fmulF64 rms d a b => Sys2Proof.Machine.execFmulF64 rms d a b s
  | .fmulF32 rms d a b => Sys2Proof.Machine.execFmulF32 rms d a b s
  | .fdivF64 rms d a b => Sys2Proof.Machine.execFdivF64 rms d a b s
  | .fdivF32 rms d a b => Sys2Proof.Machine.execFdivF32 rms d a b s
  | .fsqrtF64 rms d a => Sys2Proof.Machine.execFsqrtF64 rms d a s
  | .fsqrtF32 rms d a => Sys2Proof.Machine.execFsqrtF32 rms d a s
  | .fmaF64 rms d a b c => Sys2Proof.Machine.execFmaF64 rms d a b c s
  | .fmaF32 rms d a b c => Sys2Proof.Machine.execFmaF32 rms d a b c s
  | .fminF64 d a b => Sys2Proof.Machine.execFminF64 d a b s
  | .fminF32 d a b => Sys2Proof.Machine.execFminF32 d a b s
  | .fmaxF64 d a b => Sys2Proof.Machine.execFmaxF64 d a b s
  | .fmaxF32 d a b => Sys2Proof.Machine.execFmaxF32 d a b s
  | .feqF64 d a b => Sys2Proof.Machine.execFeqF64 d a b s
  | .feqF32 d a b => Sys2Proof.Machine.execFeqF32 d a b s
  | .fltF64 d a b => Sys2Proof.Machine.execFltF64 d a b s
  | .fltF32 d a b => Sys2Proof.Machine.execFltF32 d a b s
  | .fleF64 d a b => Sys2Proof.Machine.execFleF64 d a b s
  | .fleF32 d a b => Sys2Proof.Machine.execFleF32 d a b s
  | .fclassF64 d a => Sys2Proof.Machine.execFclassF64 d a s
  | .fclassF32 d a => Sys2Proof.Machine.execFclassF32 d a s
  | .fsgnF64 d a b => Sys2Proof.Machine.execFsgnF64 d a b s
  | .fsgnF32 d a b => Sys2Proof.Machine.execFsgnF32 d a b s
  | .fsgnnF64 d a b => Sys2Proof.Machine.execFsgnnF64 d a b s
  | .fsgnnF32 d a b => Sys2Proof.Machine.execFsgnnF32 d a b s
  | .fsgnxF64 d a b => Sys2Proof.Machine.execFsgnxF64 d a b s
  | .fsgnxF32 d a b => Sys2Proof.Machine.execFsgnxF32 d a b s
  | .fcvtF32F64 rms d a => Sys2Proof.Machine.execFcvtF32F64 rms d a s
  | .fcvtF64F32 rms d a => Sys2Proof.Machine.execFcvtF64F32 rms d a s
  | .fcvtF64I64 rms d a => Sys2Proof.Machine.execFcvtF64I64 rms d a s
  | .fcvtF64N64 rms d a => Sys2Proof.Machine.execFcvtF64N64 rms d a s
  | .fcvtF32I64 rms d a => Sys2Proof.Machine.execFcvtF32I64 rms d a s
  | .fcvtF32N64 rms d a => Sys2Proof.Machine.execFcvtF32N64 rms d a s
  | .fcvtI64F64 rms d a => Sys2Proof.Machine.execFcvtI64F64 rms d a s
  | .fcvtN64F64 rms d a => Sys2Proof.Machine.execFcvtN64F64 rms d a s
  | .fcvtI64F32 rms d a => Sys2Proof.Machine.execFcvtI64F32 rms d a s
  | .fcvtN64F32 rms d a => Sys2Proof.Machine.execFcvtN64F32 rms d a s
  | .ldI8 d a off => Sys2Proof.Machine.execLdI8 d a off s
  | .ldI8Long d a off => Sys2Proof.Machine.execLdI8Long d a off s
  | .ldN8 d a off => Sys2Proof.Machine.execLdN8 d a off s
  | .ldN8Long d a off => Sys2Proof.Machine.execLdN8Long d a off s
  | .ldI16 d a off => Sys2Proof.Machine.execLdI16 d a off s
  | .ldI16Long d a off => Sys2Proof.Machine.execLdI16Long d a off s
  | .ldN16 d a off => Sys2Proof.Machine.execLdN16 d a off s
  | .ldN16Long d a off => Sys2Proof.Machine.execLdN16Long d a off s
  | .ldI32 d a off => Sys2Proof.Machine.execLdI32 d a off s
  | .ldI32Long d a off => Sys2Proof.Machine.execLdI32Long d a off s
  | .ldN32 d a off => Sys2Proof.Machine.execLdN32 d a off s
  | .ldN32Long d a off => Sys2Proof.Machine.execLdN32Long d a off s
  | .ldI64 d a off => Sys2Proof.Machine.execLdI64 d a off s
  | .ldI64Long d a off => Sys2Proof.Machine.execLdI64Long d a off s
  | .st8 d a off => Sys2Proof.Machine.execSt8 d a off s
  | .st8Long d a off => Sys2Proof.Machine.execSt8Long d a off s
  | .st16 d a off => Sys2Proof.Machine.execSt16 d a off s
  | .st16Long d a off => Sys2Proof.Machine.execSt16Long d a off s
  | .st32 d a off => Sys2Proof.Machine.execSt32 d a off s
  | .st32Long d a off => Sys2Proof.Machine.execSt32Long d a off s
  | .st64 d a off => Sys2Proof.Machine.execSt64 d a off s
  | .st64Long d a off => Sys2Proof.Machine.execSt64Long d a off s
  | .ldAcq sc d a off => Sys2Proof.Machine.execLdAcq sc d a off s
  | .ldAcqN32 sc d a off => Sys2Proof.Machine.execLdAcqN32 sc d a off s
  | .stRel sc d a off => Sys2Proof.Machine.execStRel sc d a off s
  | .stRel32 sc d a off => Sys2Proof.Machine.execStRel32 sc d a off s
  | .amoSwap w32 d a b off => Sys2Proof.Machine.execAmoSwap w32 d a b off s
  | .amoAdd w32 d a b off => Sys2Proof.Machine.execAmoAdd w32 d a b off s
  | .amoAnd w32 d a b off => Sys2Proof.Machine.execAmoAnd w32 d a b off s
  | .amoOr w32 d a b off => Sys2Proof.Machine.execAmoOr w32 d a b off s
  | .amoXor w32 d a b off => Sys2Proof.Machine.execAmoXor w32 d a b off s
  | .amoMinI w32 d a b off => Sys2Proof.Machine.execAmoMinI w32 d a b off s
  | .amoMaxI w32 d a b off => Sys2Proof.Machine.execAmoMaxI w32 d a b off s
  | .amoMinN w32 d a b off => Sys2Proof.Machine.execAmoMinN w32 d a b off s
  | .amoMaxN w32 d a b off => Sys2Proof.Machine.execAmoMaxN w32 d a b off s
  | .cas64 d a b c off => Sys2Proof.Machine.execCas64 d a b c off s
  | .cas32 d a b c off => Sys2Proof.Machine.execCas32 d a b c off s
  | .prefd a off => Sys2Proof.Machine.execPrefd a off s
  | .prefi a off => Sys2Proof.Machine.execPrefi a off s
  | .beq a b disp => Sys2Proof.Machine.execBeq a b disp s
  | .bne a b disp => Sys2Proof.Machine.execBne a b disp s
  | .bltI64 a b disp => Sys2Proof.Machine.execBltI64 a b disp s
  | .bgeI64 a b disp => Sys2Proof.Machine.execBgeI64 a b disp s
  | .bltN64 a b disp => Sys2Proof.Machine.execBltN64 a b disp s
  | .bgeN64 a b disp => Sys2Proof.Machine.execBgeN64 a b disp s
  | .jal d disp => Sys2Proof.Machine.execJal d disp s
  | .jalLong d disp => Sys2Proof.Machine.execJalLong d disp s
  | .jalr d a off => Sys2Proof.Machine.execJalr d a off s
  | .settypeImm d req => Sys2Proof.Machine.execSettypeImm d req s
  | .settypeReg d a => Sys2Proof.Machine.execSettypeReg d a s
  | .setvlReg d a => Sys2Proof.Machine.execSetvlReg d a s
  | .setvlImm d req => Sys2Proof.Machine.execSetvlImm d req s
  | .setvlStream d a n => Sys2Proof.Machine.execSetvlStream d a n s
  | .setshapeReg d a b => Sys2Proof.Machine.execSetshapeReg d a b s
  | .setshapeImm d rows cols => Sys2Proof.Machine.execSetshapeImm d rows cols s
  | .csrr d csr => Sys2Proof.Machine.execCsrr d csr s
  | .csrw csr a => Sys2Proof.Machine.execCsrw csr a s
  | .csrrw d csr a => Sys2Proof.Machine.execCsrrw d csr a s
  | .csrs d csr a => Sys2Proof.Machine.execCsrs d csr a s
  | .csrc d csr a => Sys2Proof.Machine.execCsrc d csr a s
  | .drain q => Sys2Proof.Machine.execDrain q s
  | .trap imm => Sys2Proof.Machine.execTrap imm s
  | .eret => Sys2Proof.Machine.execEret s
  | .vsave d a => Sys2Proof.Machine.execVsave d a s
  | .vrest a => Sys2Proof.Machine.execVrest a s
  | .launch d a off => Sys2Proof.Machine.execLaunch d a off s
  | .join d a => Sys2Proof.Machine.execJoin d a s
  | .leave d => Sys2Proof.Machine.execLeave d s
  | .yield => Sys2Proof.Machine.execYield s
  | .yieldPark => Sys2Proof.Machine.execYieldPark s
  | .exit a => Sys2Proof.Machine.execExit a s
  | .hprio lvl => Sys2Proof.Machine.execHprio lvl s
  | .hafn a => Sys2Proof.Machine.execHafn a s
  | .lend d a => Sys2Proof.Machine.execLend d a s
  | .byinit d a b off => Sys2Proof.Machine.execByinit d a b off s
  | .byarrive d a n => Sys2Proof.Machine.execByarrive d a n s
  | .bywait d a b c off => Sys2Proof.Machine.execBywait d a b c off s
  | .fence sc uo pred succ => Sys2Proof.Machine.execFence sc uo pred succ s
  | .fencePd uo d pred succ => Sys2Proof.Machine.execFencePd uo d pred succ s
  | .waitaddr d a b c off => Sys2Proof.Machine.execWaitaddr d a b c off s
  | .waitaddr32 d a b c off => Sys2Proof.Machine.execWaitaddr32 d a b c off s
  | .cewait d a c => Sys2Proof.Machine.execCewait d a c s
  | .lnempty a b off => Sys2Proof.Machine.execLnempty a b off s
  | .welt d a off => Sys2Proof.Machine.execWelt d a off s
  | .bcnopen d a => Sys2Proof.Machine.execBcnopen d a s
  | .beacon d a b n off => Sys2Proof.Machine.execBeacon d a b n off s
  | .bcnclose d n => Sys2Proof.Machine.execBcnclose d n s
  | .cbkld a off => Sys2Proof.Machine.execCbkld a off s
  | .vaddFp ty m rms d a b => Sys2Proof.Machine.execVaddFp ty m rms d a b s
  | .vsubFp ty m rms d a b => Sys2Proof.Machine.execVsubFp ty m rms d a b s
  | .vmulFp ty m rms d a b => Sys2Proof.Machine.execVmulFp ty m rms d a b s
  | .vdiv ty m rms d a b => Sys2Proof.Machine.execVdiv ty m rms d a b s
  | .vsqrt ty m rms d a => Sys2Proof.Machine.execVsqrt ty m rms d a s
  | .vfma ty m rms d a b => Sys2Proof.Machine.execVfma ty m rms d a b s
  | .vfnma ty m rms d a b => Sys2Proof.Machine.execVfnma ty m rms d a b s
  | .vminFp ty m rms d a b => Sys2Proof.Machine.execVminFp ty m rms d a b s
  | .vmaxFp ty m rms d a b => Sys2Proof.Machine.execVmaxFp ty m rms d a b s
  | .vcmpFp pr ty m d a b => Sys2Proof.Machine.execVcmpFp pr ty m d a b s
  | .vsgn ty m d a b => Sys2Proof.Machine.execVsgn ty m d a b s
  | .vsgnn ty m d a b => Sys2Proof.Machine.execVsgnn ty m d a b s
  | .vsgnx ty m d a b => Sys2Proof.Machine.execVsgnx ty m d a b s
  | .vscl inv ty m d a b => Sys2Proof.Machine.execVscl inv ty m d a b s
  | .vaddInt ty m d a b => Sys2Proof.Machine.execVaddInt ty m d a b s
  | .vsubInt ty m d a b => Sys2Proof.Machine.execVsubInt ty m d a b s
  | .vaddSat ty m d a b => Sys2Proof.Machine.execVaddSat ty m d a b s
  | .vsubSat ty m d a b => Sys2Proof.Machine.execVsubSat ty m d a b s
  | .vmulInt ty m d a b => Sys2Proof.Machine.execVmulInt ty m d a b s
  | .vmulh ty m d a b => Sys2Proof.Machine.execVmulh ty m d a b s
  | .vmadd ty m d a b => Sys2Proof.Machine.execVmadd ty m d a b s
  | .vminInt ty m d a b => Sys2Proof.Machine.execVminInt ty m d a b s
  | .vmaxInt ty m d a b => Sys2Proof.Machine.execVmaxInt ty m d a b s
  | .vcmpInt pr ty m d a b => Sys2Proof.Machine.execVcmpInt pr ty m d a b s
  | .vsll ty m d a b => Sys2Proof.Machine.execVsll ty m d a b s
  | .vsrl ty m d a b => Sys2Proof.Machine.execVsrl ty m d a b s
  | .vsra ty m d a b => Sys2Proof.Machine.execVsra ty m d a b s
  | .vid ty m d => Sys2Proof.Machine.execVid ty m d s
  | .vand m d a b => Sys2Proof.Machine.execVand m d a b s
  | .vor m d a b => Sys2Proof.Machine.execVor m d a b s
  | .vxor m d a b => Sys2Proof.Machine.execVxor m d a b s
  | .vmv m d a => Sys2Proof.Machine.execVmv m d a s
  | .kand d a b => Sys2Proof.Machine.execKand d a b s
  | .kor d a b => Sys2Proof.Machine.execKor d a b s
  | .kxor d a b => Sys2Proof.Machine.execKxor d a b s
  | .kandn d a b => Sys2Proof.Machine.execKandn d a b s
  | .knot d a => Sys2Proof.Machine.execKnot d a s
  | .kset d => Sys2Proof.Machine.execKset d s
  | .vbcast ty m d a => Sys2Proof.Machine.execVbcast ty m d a s
  | .vmvx ty d a b => Sys2Proof.Machine.execVmvx ty d a b s
  | .vcvt m rms part dst src d a => Sys2Proof.Machine.execVcvt m rms part dst src d a s
  | .vsegmax ty k d a => Sys2Proof.Machine.execVsegmax ty k d a s
  | .vsalsel pat ty m d a b => Sys2Proof.Machine.execVsalsel pat ty m d a b s
  | .vrngN32 m d a b => Sys2Proof.Machine.execVrngN32 m d a b s
  | .vld ty m d a off => Sys2Proof.Machine.execVld ty m d a off s
  | .vst ty k fl d a off => Sys2Proof.Machine.execVst ty k fl d a off s
  | .vlds ty m d a b off => Sys2Proof.Machine.execVlds ty m d a b off s
  | .vsts ty k fl d a b off => Sys2Proof.Machine.execVsts ty k fl d a b off s
  | .vldx ty m d a b sh off => Sys2Proof.Machine.execVldx ty m d a b sh off s
  | .vstx ty k fl d a b sh off => Sys2Proof.Machine.execVstx ty k fl d a b sh off s
  | .vgath ty m d a b sh re => Sys2Proof.Machine.execVgath ty m d a b sh re s
  | .vscat ty k d a b sh re => Sys2Proof.Machine.execVscat ty k d a b sh re s
  | .vscadd ty k d a b sh re => Sys2Proof.Machine.execVscadd ty k d a b sh re s
  | .sopen n a off => Sys2Proof.Machine.execSopen n a off s
  | .sadv n a => Sys2Proof.Machine.execSadv n a s
  | .stend d n => Sys2Proof.Machine.execStend d n s
  | .sclose n => Sys2Proof.Machine.execSclose n s
  | .fopen n a off => Sys2Proof.Machine.execFopen n a off s
  | .fadv n => Sys2Proof.Machine.execFadv n s
  | .ftend d n => Sys2Proof.Machine.execFtend d n s
  | .fclose n => Sys2Proof.Machine.execFclose n s
  | .vgamRd d a => Sys2Proof.Machine.execVgamRd d a s
  | .vgamWr d a => Sys2Proof.Machine.execVgamWr d a s
  | .vred op ty k d a b => Sys2Proof.Machine.execVred op ty k d a b s
  | .vscan op ex ty m d a b => Sys2Proof.Machine.execVscan op ex ty m d a b s
  | .vperm m d a b => Sys2Proof.Machine.execVperm m d a b s
  | .vslideUp m d a b => Sys2Proof.Machine.execVslideUp m d a b s
  | .vslideDn m d a b => Sys2Proof.Machine.execVslideDn m d a b s
  | .vcompress k d a => Sys2Proof.Machine.execVcompress k d a s
  | .kpopc d a => Sys2Proof.Machine.execKpopc d a s
  | .kfirst d a => Sys2Proof.Machine.execKfirst d a s
  | .plpack ty k fl p d a b c => Sys2Proof.Machine.execPlpack ty k fl p d a b c s
  | .plunpk m p d a c => Sys2Proof.Machine.execPlunpk m p d a c s
  | .mma pa pb ser d a b c => Sys2Proof.Machine.execMma pa pb ser d a b c s
  | .mzero d => Sys2Proof.Machine.execMzero d s
  | .mld d a b off => Sys2Proof.Machine.execMld d a b off s
  | .mst d a b off => Sys2Proof.Machine.execMst d a b off s
  | .rred op ty a b off => Sys2Proof.Machine.execRred op ty a b off s
  | .rwset d n a b => Sys2Proof.Machine.execRwset d n a b s
  | .fmap a b => Sys2Proof.Machine.execFmap a b s
  | .pairWord s0 s1 => Sys2Proof.Machine.execPairWord s0 s1 s
  | .illegalWord w => Sys2Proof.Machine.execIllegalWord w s
  | .instructionFetchFill tid va => Sys2Proof.Machine.execInstructionFetchFill tid va s
  | .dataL1Fill tid va => Sys2Proof.Machine.execDataL1Fill tid va s
  | .pageWalk walker va => Sys2Proof.Machine.execPageWalk walker va s
  | .broadcast tid => Sys2Proof.Machine.execBroadcast tid s
  | .laneGroupExecute tid lane => Sys2Proof.Machine.execLaneGroupExecute tid lane s
  | .loadGroupLand tid entry group => Sys2Proof.Machine.execLoadGroupLand tid entry group s
  | .emptyLineFilledWake tid => Sys2Proof.Machine.execEmptyLineFilledWake tid s
  | .storeRelease tid => Sys2Proof.Machine.execStoreRelease tid s
  | .storePerform tid idx => Sys2Proof.Machine.execStorePerform tid idx s
  | .valueArrive tid => Sys2Proof.Machine.execValueArrive tid s
  | .laneDeliver tid lane => Sys2Proof.Machine.execLaneDeliver tid lane s
  | .rendezvousDone tid => Sys2Proof.Machine.execRendezvousDone tid s
  | .matrixEngineStart core => Sys2Proof.Machine.execMatrixEngineStart core s
  | .mmaRow core => Sys2Proof.Machine.execMmaRow core s
  | .matrixComplete core => Sys2Proof.Machine.execMatrixComplete core s
  | .streamPrefetch tid stream pos => Sys2Proof.Machine.execStreamPrefetch tid stream pos s
  | .trapEntry tid => Sys2Proof.Machine.execTrapEntry tid s
  | .admitThread tid => Sys2Proof.Machine.execAdmitThread tid s
  | .placeThread cluster => Sys2Proof.Machine.execPlaceThread cluster s
  | .scratchpadCarry tid => Sys2Proof.Machine.execScratchpadCarry tid s
  | .sliceEnd tid => Sys2Proof.Machine.execSliceEnd tid s
  | .gangWaitSliceExpiry cluster => Sys2Proof.Machine.execGangWaitSliceExpiry cluster s
  | .agingInterval tid => Sys2Proof.Machine.execAgingInterval tid s
  | .waitEvent tid => Sys2Proof.Machine.execWaitEvent tid s
  | .waitDeadline tid => Sys2Proof.Machine.execWaitDeadline tid s
  | .launchComplete lid => Sys2Proof.Machine.execLaunchComplete lid s
  | .cegoRead d => Sys2Proof.Machine.execCegoRead d s
  | .copyStart cluster => Sys2Proof.Machine.execCopyStart cluster s
  | .copyLineLand cluster id line => Sys2Proof.Machine.execCopyLineLand cluster id line s
  | .copyComplete cluster id => Sys2Proof.Machine.execCopyComplete cluster id s
  | .copyFault cluster id => Sys2Proof.Machine.execCopyFault cluster id s
  | .gangDelivery cluster id tid => Sys2Proof.Machine.execGangDelivery cluster id tid s
  | .weltBlockStart cluster => Sys2Proof.Machine.execWeltBlockStart cluster s
  | .weltMergeRow cluster => Sys2Proof.Machine.execWeltMergeRow cluster s
  | .weltCompressRow cluster => Sys2Proof.Machine.execWeltCompressRow cluster s
  | .weltComplete cluster => Sys2Proof.Machine.execWeltComplete cluster s
  | .weltFault cluster => Sys2Proof.Machine.execWeltFault cluster s
  | .awlRowFetch layer row => Sys2Proof.Machine.execAwlRowFetch layer row s
  | .gRelease tid => Sys2Proof.Machine.execGRelease tid s
  | .scatterAddPerform tid => Sys2Proof.Machine.execScatterAddPerform tid s
  | .flashFrame cluster => Sys2Proof.Machine.execFlashFrame cluster s
  | .flashchrWrite v => Sys2Proof.Machine.execFlashchrWrite v s
  | .lbudgetWrite v => Sys2Proof.Machine.execLbudgetWrite v s
  | .slackWrite v => Sys2Proof.Machine.execSlackWrite v s
  | .fcsrAccess op d a => Sys2Proof.Machine.execFcsrAccess op d a s
  | .vstartAccess op d a => Sys2Proof.Machine.execVstartAccess op d a s
  | .sensorSample die sensor temp => Sys2Proof.Machine.execSensorSample die sensor temp s
  | .energyUpdate acc delta => Sys2Proof.Machine.execEnergyUpdate acc delta s
  | .powerControl cluster lower lbcap millivolts => Sys2Proof.Machine.execPowerControl cluster lower lbcap millivolts s
  | .thermalEmergency layer => Sys2Proof.Machine.execThermalEmergency layer s
  | .slackInterval => Sys2Proof.Machine.execSlackInterval s
  | .lanternTrip comparators => Sys2Proof.Machine.execLanternTrip comparators s
  | .scrub word bad => Sys2Proof.Machine.execScrub word bad s
  | .correctedError die => Sys2Proof.Machine.execCorrectedError die s
  | .uncorrectableError die unit what => Sys2Proof.Machine.execUncorrectableError die unit what s
  | .energyRead64 acc => Sys2Proof.Machine.execEnergyRead64 acc s
  | .energyReadLow acc => Sys2Proof.Machine.execEnergyReadLow acc s
  | .energyReadHigh acc => Sys2Proof.Machine.execEnergyReadHigh acc s
  | .errorCounterRead die ctr => Sys2Proof.Machine.execErrorCounterRead die ctr s
  | .errlogRead die => Sys2Proof.Machine.execErrlogRead die s
  | .lanternRecordRead first => Sys2Proof.Machine.execLanternRecordRead first s
  | .plimWrite watts => Sys2Proof.Machine.execPlimWrite watts s
  | .hostRegisterWrite off access => Sys2Proof.Machine.execHostRegisterWrite off access s
  | .debugHalt core halt => Sys2Proof.Machine.execDebugHalt core halt s
  | .debugStep core ctx => Sys2Proof.Machine.execDebugStep core ctx s
  | .cedbgPause cluster pause => Sys2Proof.Machine.execCedbgPause cluster pause s
  | .dbggo => Sys2Proof.Machine.execDbggo s
  | .dstart => Sys2Proof.Machine.execDstart s
  | .inval => Sys2Proof.Machine.execInval s
  | .fwstage => Sys2Proof.Machine.execFwstage s
  | .fwact => Sys2Proof.Machine.execFwact s
  | .attest => Sys2Proof.Machine.execAttest s
  | .quiesce => Sys2Proof.Machine.execQuiesce s
  | .resume => Sys2Proof.Machine.execResume s
  | .mailboxReset => Sys2Proof.Machine.execMailboxReset s
  | .unknownCommand cmd => Sys2Proof.Machine.execUnknownCommand cmd s
  | .coldReset => Sys2Proof.Machine.execColdReset s
  | .warmReset => Sys2Proof.Machine.execWarmReset s
  | .foghorn causes => Sys2Proof.Machine.execFoghorn causes s
  | .hostMemAccess addr data write => Sys2Proof.Machine.execHostMemAccess addr data write s
  | .hostSnoop line data => Sys2Proof.Machine.execHostSnoop line data s
  | .flitReceive link seq good src dst p => Sys2Proof.Machine.execFlitReceive link seq good src dst p s
  | .nakReceive link seq => Sys2Proof.Machine.execNakReceive link seq s
  | .linkTrained link => Sys2Proof.Machine.execLinkTrained link s
  | .datagramReceive port good src p => Sys2Proof.Machine.execDatagramReceive port good src p s
  | .remoteWritePerform idx => Sys2Proof.Machine.execRemoteWritePerform idx s
  | .remoteLoadRequest idx => Sys2Proof.Machine.execRemoteLoadRequest idx s
  | .remoteLoadReply idx => Sys2Proof.Machine.execRemoteLoadReply idx s
  | .remoteLoadTimeout tid => Sys2Proof.Machine.execRemoteLoadTimeout tid s
  | .beaconOpenRequest idx => Sys2Proof.Machine.execBeaconOpenRequest idx s
  | .beaconOpenReply idx => Sys2Proof.Machine.execBeaconOpenReply idx s
  | .beaconOpenTimeout tid => Sys2Proof.Machine.execBeaconOpenTimeout tid s
  | .beaconFlagArrive idx => Sys2Proof.Machine.execBeaconFlagArrive idx s
  | .beaconFlagShort idx => Sys2Proof.Machine.execBeaconFlagShort idx s
  | .beaconFlagReport idx => Sys2Proof.Machine.execBeaconFlagReport idx s
  | .flagOutstandingExpiry chan => Sys2Proof.Machine.execFlagOutstandingExpiry chan s
  | .beaconCloseRequest idx => Sys2Proof.Machine.execBeaconCloseRequest idx s
  | .beaconCloseReply idx => Sys2Proof.Machine.execBeaconCloseReply idx s
  | .beaconCloseTimeout tid => Sys2Proof.Machine.execBeaconCloseTimeout tid s
  | .sweepMarkerArrive idx => Sys2Proof.Machine.execSweepMarkerArrive idx s
  | .sweepMarkerShort idx => Sys2Proof.Machine.execSweepMarkerShort idx s
  | .sweepEcho idx => Sys2Proof.Machine.execSweepEcho idx s
  | .sweepTimeout tid => Sys2Proof.Machine.execSweepTimeout tid s
  | .reductionArrive idx => Sys2Proof.Machine.execReductionArrive idx s
  | .beaconCloseBto idx => Sys2Proof.Machine.execBeaconCloseBto idx s
  | .linkOutOfService scaleOut n => Sys2Proof.Machine.execLinkOutOfService scaleOut n s

end Sys2Proof.Machine
end

