-- ==== Sys2Proof/Machine/Step.lean ====
section
/-!
DEFINITION. One step of the package, and the state in which the very next step runs a given instruction.
-/
namespace Sys2Proof.Machine

/-- What exec answered for a word of state s: a step of the core (04 R111) is used up where the word is done. -/
def issued (s : State) (i : Instr) : Out → Out
  | .next t => .next (s.stepUsed (jumps i) t)
  | o => o

/-- Issue of the thread in focus: the word at its pc is fetched, decoded and executed, unless it may not issue yet. A fetch that
fails is a trap at the word (04 R98). -/
noncomputable def issueStep (s : State) : Host.Outcome State Fault Refusal :=
  match s.fetchAt s.me.pc with
  | .error b => .next (s.stepUsed false (s.noIssue.trapA b.code b.detail s.me.pc))
  | .ok w =>
    if s.me.issuable (decodeFetched w) then issued s (decodeFetched w) (exec (decodeFetched w) (s.issueReady w (decodeFetched w)))
    else .next s.noIssue

/-- One step: the next event of the agenda (log 1), or the side whose turn it is. -/
noncomputable def step (s : State) : Host.Outcome State Fault Refusal :=
  match s.agenda with
  | i :: rest => if s.hears i then exec i { s with agenda := rest } else .next { s with agenda := rest }
  | [] =>
    if !s.powered then .fault .unpowered
    else
      match s.turn with
      | .issue => if s.mayIssue then issueStep s else .next s.noIssue
      | .engine => .next { s.autoEvent with turn := .rotate }
      | .rotate => .next { s.rotate with turn := .issue }

/-- A thread that runs at supervisor level on core 0 with all lanes and translates VA 0 to 1 TiB to the same local physical
addresses through the table at 0x10_0000 (log 10). -/
def loadedThread (t : Thread) : Thread :=
  { t with status := .running, priv := .sup, core := 0, ctx := 0, lmask := 0xFF, root := 0x100000, pc := 0x200000,
           wasPlaced := true, fault := none, held := false, win := [], vals := [], only1 := false, due := .none, carry := none, before := none }

/-- s with the instruction stored where step fetches its next one. Where no thread runs, a running thread and its page table are
set up first (log 10). -/
def State.withFetchWord (s : State) (nbits w : Nat) : State :=
  let word := w % 2 ^ nbits
  let put (s : State) (a : Nat) : State :=
    { s with mem := s.mem.perform none none (wholeBytes a (leBytes 8 word)), agenda := [], turn := .issue }
  let fresh : State :=
    put { s with
      me := loadedThread s.me
      mem := { s.mem.perform none none (wholeBytes 0x100000 (leBytes 8 0x3D)) with icache := [], tlb := [] }
      powered := true } 0x200000
  if s.mayIssue then
    match s.translate s.env .fetch none s.me.pc with
    | .ok ⟨.near h, _, _⟩ => { put s h with mem := { (put s h).mem with icache := [] } }
    | _ => fresh
  else fresh

end Sys2Proof.Machine
end

