-- ==== Sys2Proof/WellFormed.lean ====
section
/-!
DEFINITION. Which instructions are well formed: what a word must satisfy to be one (02 R36 to R40 and the allocation tables of 03, 08, 09,
10, 11, 15, 18, 21), and the ranges of the numbers that an event of the table names (00 R2, 19 R336 to R343, 21 R377).
-/
namespace Sys2Proof

/-- An instruction the decoder can answer, or an event that names something the package has. -/
noncomputable def Instr.wf : Instr → Bool
  | .add _ _ _ | .addImm _ _ _ | .addImmLong _ _ _ | .sub _ _ _ | .and _ _ _ | .andImm _ _ _ | .andImmLong _ _ _ | .or _ _ _
  | .orImm _ _ _ | .orImmLong _ _ _ | .xor _ _ _ | .xorImm _ _ _ | .xorImmLong _ _ _ | .andn _ _ _ | .orn _ _ _ | .xnor _ _ _
  | .sll _ _ _ | .sllImm _ _ _ | .srl _ _ _ | .srlImm _ _ _ | .sra _ _ _ | .sraImm _ _ _ | .rol _ _ _ | .rolImm _ _ _
  | .ror _ _ _ | .rorImm _ _ _ | .minI64 _ _ _ | .minI64Imm _ _ _ | .maxI64 _ _ _ | .maxI64Imm _ _ _ | .minN64 _ _ _
  | .minN64Imm _ _ _ | .maxN64 _ _ _ | .maxN64Imm _ _ _ | .sltI64 _ _ _ | .sltI64Imm _ _ _ | .sltN64 _ _ _ | .sltN64Imm _ _ _
  | .seq _ _ _ | .seqImm _ _ _ | .add32 _ _ _ | .add32Imm _ _ _ | .sub32 _ _ _ | .sll32 _ _ _ | .sll32Imm _ _ _
  | .srl32 _ _ _ | .srl32Imm _ _ _ | .sra32 _ _ _ | .sra32Imm _ _ _ | .mul _ _ _ | .mulhI64 _ _ _ | .mulhN64 _ _ _
  | .mul32 _ _ _ | .divI64 _ _ _ | .divN64 _ _ _ | .remI64 _ _ _ | .remN64 _ _ _ | .clz _ _ | .ctz _ _ | .popc _ _
  | .rev8 _ _ | .brev _ _ | .sext8 _ _ | .sext16 _ _ | .sext32 _ _ | .zext8 _ _ | .zext16 _ _ | .zext32 _ _ | .sel _ _ _ _
  | .madd _ _ _ _ | .li _ _ | .liLong _ _ | .lih _ _ | .lpc _ _ | .lpcLong _ _ | .faddF64 _ _ _ _ | .faddF32 _ _ _ _
  | .fsubF64 _ _ _ _ | .fsubF32 _ _ _ _ | .fmulF64 _ _ _ _ | .fmulF32 _ _ _ _ | .fdivF64 _ _ _ _ | .fdivF32 _ _ _ _
  | .fsqrtF64 _ _ _ | .fsqrtF32 _ _ _ | .fmaF64 _ _ _ _ _ | .fmaF32 _ _ _ _ _ | .fminF64 _ _ _ | .fminF32 _ _ _
  | .fmaxF64 _ _ _ | .fmaxF32 _ _ _ | .feqF64 _ _ _ | .feqF32 _ _ _ | .fltF64 _ _ _ | .fltF32 _ _ _ | .fleF64 _ _ _
  | .fleF32 _ _ _ | .fclassF64 _ _ | .fclassF32 _ _ | .fsgnF64 _ _ _ | .fsgnF32 _ _ _ | .fsgnnF64 _ _ _ | .fsgnnF32 _ _ _
  | .fsgnxF64 _ _ _ | .fsgnxF32 _ _ _ | .fcvtF32F64 _ _ _ | .fcvtF64F32 _ _ _ | .fcvtF64I64 _ _ _ | .fcvtF64N64 _ _ _
  | .fcvtF32I64 _ _ _ | .fcvtF32N64 _ _ _ | .fcvtI64F64 _ _ _ | .fcvtN64F64 _ _ _ | .fcvtI64F32 _ _ _ | .fcvtN64F32 _ _ _
  | .ldI8 _ _ _ | .ldI8Long _ _ _ | .ldN8 _ _ _ | .ldN8Long _ _ _ | .ldI16 _ _ _ | .ldI16Long _ _ _ | .ldN16 _ _ _
  | .ldN16Long _ _ _ | .ldI32 _ _ _ | .ldI32Long _ _ _ | .ldN32 _ _ _ | .ldN32Long _ _ _ | .ldI64 _ _ _ | .ldI64Long _ _ _
  | .st8 _ _ _ | .st8Long _ _ _ | .st16 _ _ _ | .st16Long _ _ _ | .st32 _ _ _ | .st32Long _ _ _ | .st64 _ _ _
  | .st64Long _ _ _ => true
  | .ldAcq sc _ _ _ => sc != .pd
  | .ldAcqN32 sc _ _ _ => sc != .pd
  | .stRel sc _ _ _ => sc != .pd
  | .stRel32 sc _ _ _ => sc != .pd
  | .amoSwap _ _ _ _ _ | .amoAdd _ _ _ _ _ | .amoAnd _ _ _ _ _ | .amoOr _ _ _ _ _ | .amoXor _ _ _ _ _ | .amoMinI _ _ _ _ _
  | .amoMaxI _ _ _ _ _ | .amoMinN _ _ _ _ _ | .amoMaxN _ _ _ _ _ | .cas64 _ _ _ _ _ | .cas32 _ _ _ _ _ | .prefd _ _
  | .prefi _ _ | .beq _ _ _ | .bne _ _ _ | .bltI64 _ _ _ | .bgeI64 _ _ _ | .bltN64 _ _ _ | .bgeN64 _ _ _ | .jal _ _
  | .jalLong _ _ | .jalr _ _ _ | .settypeImm _ _ | .settypeReg _ _ | .setvlReg _ _ | .setvlImm _ _ | .setvlStream _ _ _
  | .setshapeReg _ _ _ | .setshapeImm _ _ _ | .csrr _ _ | .csrw _ _ | .csrrw _ _ _ | .csrs _ _ _ | .csrc _ _ _ => true
  | .drain q => q != 0
  | .trap _ | .eret | .vsave _ _ | .vrest _ | .launch _ _ _ | .join _ _ | .leave _ | .yield | .yieldPark | .exit _ | .hprio _
  | .hafn _ | .lend _ _ | .byinit _ _ _ _ => true
  | .byarrive _ _ n => n != 0
  | .bywait _ _ _ _ _ => true
  | .fence sc _ pred succ => sc != .pd && pred != 0 && succ != 0
  | .fencePd _ _ pred succ => pred != 0 && succ != 0
  | .waitaddr _ _ _ _ _ | .waitaddr32 _ _ _ _ _ | .cewait _ _ _ | .lnempty _ _ _ | .welt _ _ _ | .bcnopen _ _
  | .beacon _ _ _ _ _ | .bcnclose _ _ | .cbkld _ _ => true
  | .vaddFp ty m _ _ _ _ => ty.ieee && m.ok
  | .vsubFp ty m _ _ _ _ => ty.ieee && m.ok
  | .vmulFp ty m _ _ _ _ => ty.ieee && m.ok
  | .vdiv ty m _ _ _ _ => ty.ieee && m.ok
  | .vsqrt ty m _ _ _ => ty.ieee && m.ok
  | .vfma ty m _ _ _ _ => ty.ieee && m.ok
  | .vfnma ty m _ _ _ _ => ty.ieee && m.ok
  | .vminFp ty m _ _ _ _ => ty.ieee && m.ok
  | .vmaxFp ty m _ _ _ _ => ty.ieee && m.ok
  | .vcmpFp _ ty m _ _ _ => ty.ieee && m.ok
  | .vsgn ty m _ _ _ => ty.ieee && m.ok
  | .vsgnn ty m _ _ _ => ty.ieee && m.ok
  | .vsgnx ty m _ _ _ => ty.ieee && m.ok
  | .vscl _ ty m _ _ _ => ty.ieee && m.ok
  | .vaddInt ty m _ _ _ => ty.integer && m.ok
  | .vsubInt ty m _ _ _ => ty.integer && m.ok
  | .vaddSat ty m _ _ _ => ty.integer && m.ok
  | .vsubSat ty m _ _ _ => ty.integer && m.ok
  | .vmulInt ty m _ _ _ => ty.integer && m.ok
  | .vmulh ty m _ _ _ => ty.integer && m.ok
  | .vmadd ty m _ _ _ => ty.integer && m.ok
  | .vminInt ty m _ _ _ => ty.integer && m.ok
  | .vmaxInt ty m _ _ _ => ty.integer && m.ok
  | .vcmpInt _ ty m _ _ _ => ty.integer && m.ok
  | .vsll ty m _ _ _ => ty.integer && m.ok
  | .vsrl ty m _ _ _ => ty.integer && m.ok
  | .vsra ty m _ _ _ => ty.integer && m.ok
  | .vid ty m _ => ty.integer && m.ok
  | .vand m _ _ _ => m.ok
  | .vor m _ _ _ => m.ok
  | .vxor m _ _ _ => m.ok
  | .vmv m _ _ => m.ok
  | .kand _ _ _ | .kor _ _ _ | .kxor _ _ _ | .kandn _ _ _ | .knot _ _ | .kset _ => true
  | .vbcast ty m _ _ => ty.any && m.ok
  | .vmvx ty _ _ _ => ty.any
  | .vcvt m _ part dst src _ _ => cvtOk part dst src && m.ok
  | .vsegmax ty _ _ _ => ty.float8
  | .vsalsel _ ty m _ _ _ => ty.sal && m.ok
  | .vrngN32 m _ _ _ => m.ok
  | .vld ty m _ _ _ => ty.any && m.ok
  | .vst ty _ _ _ _ _ => ty.any
  | .vlds ty m _ _ _ _ => ty.byteWide && m.ok
  | .vsts ty _ _ _ _ _ _ => ty.byteWide
  | .vldx ty m _ _ _ _ _ => ty.byteWide && m.ok
  | .vstx ty _ _ _ _ _ _ _ => ty.byteWide
  | .vgath ty m _ _ _ _ re => ty.byteWide && awlOk ty re && m.ok
  | .vscat ty _ _ _ _ _ re => ty.byteWide && awlOk ty re
  | .vscadd ty _ _ _ _ _ re => ty.reducible && awlOk ty re
  | .sopen _ _ _ | .sadv _ _ | .stend _ _ | .sclose _ | .fopen _ _ _ | .fadv _ | .ftend _ _ | .fclose _ | .vgamRd _ _
  | .vgamWr _ _ => true
  | .vred op ty _ _ _ _ => ty.reducible && (ty.integer || op == .add || op == .min || op == .max)
  | .vscan op _ ty m _ _ _ => ty.reducible && (op == .add || op == .min || op == .max) && m.ok
  | .vperm m _ _ _ => m.ok
  | .vslideUp m _ _ _ => m.ok
  | .vslideDn m _ _ _ => m.ok
  | .vcompress _ _ _ | .kpopc _ _ | .kfirst _ _ => true
  | .plpack ty _ _ p _ _ _ _ => ty.float8 && p != 0
  | .plunpk m p _ _ _ => p != 0 && m.ok
  | .mma pa pb _ _ _ _ _ => pa != 0 && pb != 0
  | .mzero _ | .mld _ _ _ _ | .mst _ _ _ _ => true
  | .rred op ty _ _ _ => !ty.isFloat || op == .add
  | .rwset _ _ _ _ | .fmap _ _ => true
  | .pairWord s0 s1 => s0.ok && s1.ok && pairOk s0 s1
  | .illegalWord w => match decode w with | .ok _ => false | .error _ => true
  | .instructionFetchFill _ _ | .dataL1Fill _ _ | .pageWalk _ _ | .broadcast _ => true
  | .laneGroupExecute _ lane => decide (lane < 8)
  | .loadGroupLand _ _ _ | .emptyLineFilledWake _ | .storeRelease _ | .storePerform _ _ | .valueArrive _ => true
  | .laneDeliver _ lane => decide (lane < 8)
  | .rendezvousDone _ => true
  | .matrixEngineStart core => decide (core < 1536)
  | .mmaRow core => decide (core < 1536)
  | .matrixComplete core => decide (core < 1536)
  | .streamPrefetch _ stream _ => decide (stream < 4)
  | .trapEntry _ | .admitThread _ => true
  | .placeThread cluster => decide (cluster < 96)
  | .scratchpadCarry _ | .sliceEnd _ => true
  | .gangWaitSliceExpiry cluster => decide (cluster < 96)
  | .agingInterval _ | .waitEvent _ | .waitDeadline _ | .launchComplete _ | .cegoRead _ => true
  | .copyStart cluster => decide (cluster < 96)
  | .copyLineLand cluster _ _ => decide (cluster < 96)
  | .copyComplete cluster _ => decide (cluster < 96)
  | .copyFault cluster _ => decide (cluster < 96)
  | .gangDelivery cluster _ _ => decide (cluster < 96)
  | .weltBlockStart cluster => decide (cluster < 96)
  | .weltMergeRow cluster => decide (cluster < 96)
  | .weltCompressRow cluster => decide (cluster < 96)
  | .weltComplete cluster => decide (cluster < 96)
  | .weltFault cluster => decide (cluster < 96)
  | .awlRowFetch layer _ => decide (layer < 8)
  | .gRelease _ | .scatterAddPerform _ => true
  | .flashFrame cluster => decide (cluster < 96)
  | .flashchrWrite _ | .lbudgetWrite _ | .slackWrite _ | .fcsrAccess _ _ _ | .vstartAccess _ _ _ => true
  | .sensorSample die sensor _ => decide ((die < 8 ∧ sensor < 64) ∨ (8 ≤ die ∧ die < 12 ∧ sensor < 16))
  | .energyUpdate acc _ => decide (acc < 9)
  | .powerControl cluster _ _ _ => decide (cluster < 96)
  | .thermalEmergency layer => decide (layer < 8)
  | .slackInterval | .lanternTrip _ | .scrub _ _ => true
  | .correctedError die => decide (die < 12)
  | .uncorrectableError die _ _ => decide (die < 12)
  | .energyRead64 acc => decide (acc < 9)
  | .energyReadLow acc => decide (acc < 9)
  | .energyReadHigh acc => decide (acc < 9)
  | .errorCounterRead die ctr => decide (die < 12 ∧ ctr < 5)
  | .errlogRead die => decide (die < 12)
  | .lanternRecordRead _ | .plimWrite _ => true
  | .hostRegisterWrite off access => match access with | .write _ => off % 8 == 0 | .read wide => off % (if wide then 8 else 4) == 0
  | .debugHalt core _ => decide (core < 1536)
  | .debugStep core ctx => decide (core < 1536 ∧ ctx < 4)
  | .cedbgPause cluster _ => decide (cluster < 96)
  | .dbggo | .dstart | .inval | .fwstage | .fwact | .attest | .quiesce | .resume | .mailboxReset => true
  | .unknownCommand cmd => decide (cmd.toNat = 0 ∨ 8 < cmd.toNat)
  | .coldReset | .warmReset => true
  | .foghorn causes => causes != 0
  | .hostMemAccess _ _ _ | .hostSnoop _ _ => true
  | .flitReceive link _ _ _ _ _ => decide (link < 32)
  | .nakReceive link _ => decide (link < 32)
  | .linkTrained link => decide (link < 42)
  | .datagramReceive port _ _ _ => decide (port < 10)
  | .remoteWritePerform _ | .remoteLoadRequest _ | .remoteLoadReply _ | .remoteLoadTimeout _ | .beaconOpenRequest _
  | .beaconOpenReply _ | .beaconOpenTimeout _ | .beaconFlagArrive _ | .beaconFlagShort _ | .beaconFlagReport _
  | .flagOutstandingExpiry _ | .beaconCloseRequest _ | .beaconCloseReply _ | .beaconCloseTimeout _ | .sweepMarkerArrive _
  | .sweepMarkerShort _ | .sweepEcho _ | .sweepTimeout _ | .reductionArrive _ | .beaconCloseBto _ => true
  | .linkOutOfService scaleOut n => decide (n < if scaleOut then 10 else 32)

/-- Whether an instruction has a word of its own: an operation or event of the table has none. -/
def Instr.isWord (i : Instr) : Bool := (encodeFrame i).isSome

end Sys2Proof
end

