-- ==== Sys2Proof/Safety.lean ====
section
/-!
DEFINITION. The terms the statements use: what it is to go on, to write one register, to enter a trap, to store bytes, and the
invariants of the package.
-/
namespace Sys2Proof.Safety

open Machine

/-- An S-form word by its fields (02 R32): FK 00, OP, FN, D, A, B, C, K, H, X. -/
def sWord (op : BitVec 8) (fn : BitVec 6) (d a b c : BitVec 5) (k : BitVec 3) (h : BitVec 6) (x : BitVec 19) : Word :=
  0#2 ++ op ++ fn ++ d ++ a ++ b ++ c ++ k ++ h ++ x

/-- An L-form word by its fields (02 R33): FK 10, OP, FN, D, A, H, I32. -/
def lWord (op : BitVec 8) (fn : BitVec 6) (d a : BitVec 5) (h : BitVec 6) (i : BitVec 32) : Word := 2#2 ++ op ++ fn ++ d ++ a ++ h ++ i

/-- A step that goes on. -/
def GoesOn (s : State) : Prop := ∃ s', step s = .next s'

/-- `o` is a next state that is `s1` but for the pc and for register d, which receives w; x0 keeps reading 0 (01 R12). `s` is the
state before the instruction; `s1` is it with whatever else the instruction changes. -/
def Answers (s s1 : State) (o : Out) (pc : Word) (d : XReg) (w : Word) : Prop :=
  ∃ t, o = .next t ∧ t.me.pc = pc ∧ (∀ r, t.getX r = if r = d ∧ r ≠ 0 then w else s.getX r)
    ∧ t = { s1 with me := { s1.me with pc := t.me.pc, x := t.me.x } }

/-- The instruction writes w to xD, continues at the next word, and changes nothing else. -/
def Wrote (s : State) (o : Out) (d : XReg) (w : Word) : Prop := Answers s s o (s.me.pc + 8) d w

/-- `o` writes a floating-point result to xD, ORs flags into FCSR, continues at the next word, and changes nothing else; the result and
the flags satisfy P. -/
def FpWrote (s : State) (o : Out) (d : XReg) (P : Word → Flags → Prop) : Prop :=
  ∃ w fl, P w fl ∧ Answers s { s with me := { s.me with flags := s.me.flags.or fl } } o (s.me.pc + 8) d w

/-- An IEEE interchange format by its exponent and fraction widths, and one value of it as a natural of 1 + eb + fb bits: sign, NaN,
signalling NaN (07 R145), and the integer that orders all values but NaNs, with both zeros 0. -/
def fpSign (eb fb n : Nat) : Bool := n / 2 ^ (eb + fb) % 2 == 1
def fpNan (eb fb n : Nat) : Bool := n / 2 ^ fb % 2 ^ eb == 2 ^ eb - 1 && n % 2 ^ fb != 0
def fpSnan (eb fb n : Nat) : Bool := fpNan eb fb n && n / 2 ^ (fb - 1) % 2 == 0
def fpKey (eb fb n : Nat) : Int := if fpSign eb fb n then -((n % 2 ^ (eb + fb) : Nat) : Int) else ((n % 2 ^ (eb + fb) : Nat) : Int)
/-- The canonical quiet NaN (03 R66). -/
def fpQnan (eb fb : Nat) : Nat := (2 ^ eb - 1) * 2 ^ fb + 2 ^ (fb - 1)
/-- A subnormal operand read as zero of its sign where FZ is set (03 R67). -/
def fpFlushed (eb fb : Nat) (fz : Bool) (n : Nat) : Nat := if fz ∧ n / 2 ^ fb % 2 ^ eb = 0 then n - n % 2 ^ fb else n
/-- The class of a value (03 R68), as the number of its bit. -/
def fpClassBit (eb fb n : Nat) : Nat :=
  let e := n / 2 ^ fb % 2 ^ eb
  let f := n % 2 ^ fb
  if e = 2 ^ eb - 1 then (if f = 0 then (if fpSign eb fb n then 0 else 7) else if fpSnan eb fb n then 8 else 9)
  else if e = 0 then (if f = 0 then (if fpSign eb fb n then 3 else 4) else if fpSign eb fb n then 2 else 5)
  else if fpSign eb fb n then 1 else 6

/-- The flag NV alone, where it is raised. -/
def onlyNv (b : Bool) : Flags := { Flags.none with nv := b }

/-- A value that floating-point bits stand for (07 R145, R149, R153): a NaN, an infinity, or a number in units of 2^-1074, the least magnitude of
FP64, of which the values of every format are multiples. -/
inductive FpValue where
  | nan (sig : Bool)
  | inf (neg : Bool)
  | fin (neg : Bool) (n : Nat)
  deriving DecidableEq, Repr

/-- Magnitude of a code without its sign in a format of fb fraction bits, in units of the least subnormal: the code of the infinity stands for the next
power of two. -/
def fpMag (fb c : Nat) : Nat := if c / 2 ^ fb = 0 then c else (2 ^ fb + c % 2 ^ fb) * 2 ^ (c / 2 ^ fb - 1)
/-- The least subnormal of a format in units of 2^-1074. -/
def fpUnit (eb fb : Nat) : Nat := 2 ^ (1076 - 2 ^ (eb - 1) - fb)
def fpInf (eb fb : Nat) : Nat := (2 ^ eb - 1) * 2 ^ fb

def fpNum (eb fb n : Nat) : FpValue :=
  let c := n % 2 ^ (eb + fb)
  if fpNan eb fb n then .nan (fpSnan eb fb n)
  else if c = fpInf eb fb then .inf (fpSign eb fb n)
  else .fin (fpSign eb fb n) (fpMag fb c * fpUnit eb fb)

/-- 07 R149: a tapered code of b bits; the run of equal bits, the exponent bit below the bit that ends it, and the fraction. -/
def tapNum (b c : Nat) : FpValue :=
  let m := c % 2 ^ (b - 1)
  let neg := c.testBit (b - 1)
  let top := m.testBit (b - 2)
  let k := ((List.range (b - 1)).takeWhile (fun i => m.testBit (b - 2 - i) == top)).length
  let rest := b - 2 - k
  let e := if m.testBit (rest - 1) ∧ 0 < rest then 1 else 0
  let f := m % 2 ^ (rest - 1)
  let power : Nat := (if top then 1074 + 2 * (k - 1) else 1074 - 2 * k) + e - (rest - 1)
  if m = 0 then (if neg then .nan false else .fin false 0) else .fin neg ((2 ^ (rest - 1) + f) * 2 ^ power)

/-- 07 R153: the values of F4, in halves. -/
def f4Num (c : Nat) : FpValue := .fin (c.testBit 3) ([0, 1, 2, 3, 4, 6, 8, 12].getD (c % 8) 0 * 2 ^ 1073)

/-- Exponent and fraction bits of a floating format (07 R145): FP32 is where the others are worked on. -/
def ebOf : Fmt → Nat
  | .fp64 => 11 | .fp16 => 5 | _ => 8
def fbOf : Fmt → Nat
  | .fp64 => 52 | .fp16 => 10 | .bf16 => 7 | _ => 23

/-- The value of an element (07 R145 to R155); K4 goes through the codebook. -/
def numOf (cb : Vector (BitVec 32) 16) (f : Fmt) (n : Nat) : FpValue :=
  match f with
  | .t8 => tapNum 8 n
  | .t6 => tapNum 6 n
  | .f4 => f4Num n
  | .k4 => fpNum 8 23 (cb.toList.getD (n % 16) 0).toNat
  | f => fpNum (ebOf f) (fbOf f) n

def FpValue.isNan : FpValue → Bool
  | .nan _ => true
  | _ => false
def FpValue.sig : FpValue → Bool
  | .nan s => s
  | _ => false
def FpValue.flip : FpValue → FpValue
  | .nan s => .nan s
  | .inf neg => .inf (!neg)
  | .fin neg n => .fin (!neg) n

/-- A number that is subnormal in the working format reads as zero where FZ is set (03 R67, 07 R157). -/
def FpValue.flushed (eb fb : Nat) (fz : Bool) : FpValue → FpValue
  | .fin neg n => .fin neg (if fz ∧ n < 2 ^ fb * fpUnit eb fb then 0 else n)
  | v => v

/-- A result before it is rounded: a NaN, an infinity, or a number with a sign; `cmp h` says how h quarters of 2^-1074 compare with its magnitude. -/
inductive Ideal where
  | nan (nv : Bool)
  | inf (neg dz : Bool)
  | real (neg : Bool) (cmp : Nat → Ordering)

/-- The number p / q, in units of 2^-1074. -/
def ratio (neg : Bool) (p q : Nat) : Ideal := .real neg (fun h => compare (h * q) (4 * p))

def signedNum (neg : Bool) (n : Nat) : Int := if neg then -(n : Int) else n

/-- IEEE 754: the sum, with the sign of a sum that is zero; product, quotient, root, and product with a sum (03 R65, R66, 08 R174). -/
def idealSum (mode : Mode) (n1 : Bool) (x : Nat) (n2 : Bool) (y q : Nat) : Ideal :=
  let t := signedNum n1 x + signedNum n2 y
  ratio (if t = 0 then (if n1 = n2 then n1 else decide (mode = .rdn)) else decide (t < 0)) t.natAbs q

def idealAdd (mode : Mode) : FpValue → FpValue → Ideal
  | .fin n1 x, .fin n2 y => idealSum mode n1 x n2 y 1
  | .inf n1, .inf n2 => if n1 = n2 then .inf n1 false else .nan true
  | .inf n1, .fin _ _ => .inf n1 false
  | .fin _ _, .inf n2 => .inf n2 false
  | a, b => .nan (a.sig || b.sig)

def idealMul : FpValue → FpValue → Ideal
  | .fin n1 x, .fin n2 y => ratio (n1 != n2) (x * y) (2 ^ 1074)
  | .inf n1, .inf n2 => .inf (n1 != n2) false
  | .inf n1, .fin n2 y => if y = 0 then .nan true else .inf (n1 != n2) false
  | .fin n1 x, .inf n2 => if x = 0 then .nan true else .inf (n1 != n2) false
  | a, b => .nan (a.sig || b.sig)

def idealDiv : FpValue → FpValue → Ideal
  | .fin n1 x, .fin n2 y => if y = 0 then (if x = 0 then .nan true else .inf (n1 != n2) true) else ratio (n1 != n2) (x * 2 ^ 1074) y
  | .inf _, .inf _ => .nan true
  | .inf n1, .fin n2 _ => .inf (n1 != n2) false
  | .fin n1 _, .inf n2 => ratio (n1 != n2) 0 1
  | a, b => .nan (a.sig || b.sig)

def idealRoot : FpValue → Ideal
  | .fin neg x => if x = 0 then ratio neg 0 1 else if neg then .nan true else .real false (fun h => compare (h * h) (16 * x * 2 ^ 1074))
  | .inf neg => if neg then .nan true else .inf false false
  | .nan s => .nan s

/-- a x b + c; `quiet` is what 0 x infinity raises where c is a quiet NaN. -/
def idealFma (mode : Mode) (quiet : Bool) (a b c : FpValue) : Ideal :=
  if a.isNan || b.isNan then .nan (a.sig || b.sig || c.sig)
  else
    match idealMul a b, c with
    | .nan _, .nan s => .nan (s || quiet)
    | .nan _, _ => .nan true
    | .inf n1 _, c => idealAdd mode (.inf n1) c
    | _, .fin n3 z =>
      (match a, b with
        | .fin n1 x, .fin n2 y => idealSum mode (n1 != n2) (x * y) n3 (z * 2 ^ 1074) (2 ^ 1074)
        | _, _ => .nan false)
    | _, .inf n3 => .inf n3 false
    | _, .nan s => .nan s

def idealOf : FpValue → Ideal
  | .fin neg x => ratio neg x 1
  | .inf neg => .inf neg false
  | .nan s => .nan s

def idealInt (i : Int) : Ideal := ratio (decide (i < 0)) (i.natAbs * 2 ^ 1074) 1

/-- Whether a number between two neighbours goes to the upper one (in magnitude): `mid` is how the middle between them compares with it, `odd` whether the
lower one has an odd code. -/
def roundsUp (mode : Mode) (neg : Bool) (mid : Ordering) (odd : Bool) : Bool :=
  match mode with
  | .rne => decide (mid = .lt ∨ (mid = .eq ∧ odd = true))
  | .rtz => false
  | .rup => !neg
  | .rdn => neg

def fpSigned (eb fb : Nat) (neg : Bool) (c : Nat) : Nat := c + if neg then 2 ^ (eb + fb) else 0

/-- 03 R66, R67, 07 R147, R157: a number is rounded once, to bits n with flags fl, in an IEEE format. a is the code at or below it; overflow takes the code
of the infinity or the one below; tininess is found after rounding to the precision of the format; with fz a subnormal result becomes zero. -/
def RoundsTo (eb fb : Nat) (mode : Mode) (fz neg : Bool) (cmp : Nat → Ordering) (n : Nat) (fl : Flags) : Prop :=
  let inf := fpInf eb fb
  let least := fpUnit eb fb
  let at' (c : Nat) : Ordering := cmp (4 * fpMag fb c * least)
  ∃ a c, a ≤ inf ∧ at' a ≠ .gt ∧ (a < inf → at' (a + 1) = .gt)
    ∧ (let inexact := at' a ≠ .eq
       let overflows := a = inf ∨ c = inf
       let halfBelow := cmp ((4 * 2 ^ fb - 2) * least)
       let tiny := cmp (4 * 2 ^ fb * least) = .gt ∧ ¬ (halfBelow = .lt ∧ roundsUp mode neg (cmp ((4 * 2 ^ fb - 1) * least)) true = true)
       let toZero := fz = true ∧ 0 < c ∧ c < 2 ^ fb
       (a = inf → c = if mode = .rne ∨ roundsUp mode neg .lt true = true then inf else inf - 1)
       ∧ (a < inf → c = if inexact ∧ roundsUp mode neg (cmp (2 * (fpMag fb a + fpMag fb (a + 1)) * least)) (a % 2 == 1) = true then a + 1 else a)
       ∧ n = fpSigned eb fb neg (if toZero then 0 else c)
       ∧ fl.nv = false ∧ fl.dz = false ∧ (fl.of = true ↔ overflows) ∧ (fl.uf = true ↔ toZero ∨ (inexact ∧ tiny ∧ ¬ overflows))
       ∧ (fl.nx = true ↔ toZero ∨ overflows ∨ inexact))

/-- The bits and flags of a result in an IEEE format: NaNs are canonical, infinities signed (03 R66, 07 R145, R147). -/
def Gives (eb fb : Nat) (mode : Mode) (fz : Bool) (r : Ideal) (n : Nat) (fl : Flags) : Prop :=
  match r with
  | .nan nv => n = fpQnan eb fb ∧ fl = onlyNv nv
  | .inf neg dz => n = fpSigned eb fb neg (fpInf eb fb) ∧ fl = { Flags.none with dz := dz }
  | .real neg cmp => RoundsTo eb fb mode fz neg cmp n fl

/-- 07 R152, R154: rounding among the magnitudes of a table, by code, in units of 2^-1074: the number lies between those of codes a and a + 1, or is
beyond the largest. `small` is the magnitude below which an inexact result underflows. -/
def TableRounds (mags : List Nat) (small : Nat) (mode : Mode) (neg : Bool) (cmp : Nat → Ordering) (c : Nat) (fl : Flags) : Prop :=
  let last := mags.length - 1
  let at' (k : Nat) : Ordering := cmp (4 * mags.getD k 0)
  (at' last = .lt → c = last ∧ fl = { Flags.none with of := true, nx := true })
  ∧ (at' last ≠ .lt → ∃ a, a ≤ last ∧ at' a ≠ .gt ∧ (a < last → at' (a + 1) = .gt)
    ∧ c = (if at' a ≠ .eq ∧ roundsUp mode neg (cmp (2 * (mags.getD a 0 + mags.getD (a + 1) 0))) (a % 2 == 1) = true then a + 1 else a)
    ∧ fl.nv = false ∧ fl.dz = false ∧ fl.of = false ∧ (fl.nx = true ↔ at' a ≠ .eq) ∧ (fl.uf = true ↔ at' a ≠ .eq ∧ cmp (4 * small) = .gt))

/-- Magnitude of a finite value. -/
def FpValue.mag : FpValue → Nat
  | .fin _ n => n
  | _ => 0

/-- The bits and flags of a result in any floating format (07 R147, R152, R154, R156, R157). -/
def GivesIn (f : Fmt) (mode : Mode) (fz : Bool) (r : Ideal) (n : Nat) (fl : Flags) : Prop :=
  match f with
  | .f4 =>
    let mags := (List.range 8).map (fun c => (f4Num c).mag)
    (match r with
      | .nan _ => n = 0 ∧ fl = onlyNv true
      | .inf neg _ => n = (if neg then 15 else 7) ∧ fl = onlyNv true
      | .real neg cmp => ∃ c g, TableRounds mags (f4Num 2).mag mode neg cmp c g
          ∧ n = (if fz ∧ c = 1 then 0 else c) + (if neg then 8 else 0) ∧ fl = if fz ∧ c = 1 then { Flags.none with uf := true, nx := true } else g)
  | .t8 | .t6 =>
    let b := if f = .t8 then 8 else 6
    let mags := (List.range (2 ^ (b - 1))).map (fun c => (tapNum b c).mag)
    (match r with
      | .nan nv => n = 2 ^ (b - 1) ∧ fl = onlyNv nv
      | .inf _ _ => n = 2 ^ (b - 1) ∧ fl = onlyNv true
      | .real neg cmp => ∃ c, TableRounds mags (tapNum b 1).mag mode neg cmp c fl ∧ n = if c = 0 then 0 else c + if neg then 2 ^ (b - 1) else 0)
  | f => Gives (ebOf f) (fbOf f) mode fz r n fl

/-- 03 R69, 07 R156: a value is rounded to an integer of w bits and saturated; bits n. -/
def IntegerOf (w : Nat) (nat : Bool) (mode : Mode) (v : FpValue) (n : Nat) (fl : Flags) : Prop :=
  let lo : Int := if nat then 0 else -(2 ^ (w - 1) : Int)
  let hi : Int := if nat then 2 ^ w - 1 else 2 ^ (w - 1) - 1
  match v with
  | .nan _ => n = 0 ∧ fl = onlyNv true
  | .inf neg => n = (BitVec.ofInt w (if neg then lo else hi)).toNat ∧ fl = onlyNv true
  | .fin neg x =>
    let a := x / 2 ^ 1074
    let r := x % 2 ^ 1074
    let i := signedNum neg (if r ≠ 0 ∧ roundsUp mode neg (compare (2 ^ 1073) r) (a % 2 == 1) = true then a + 1 else a)
    (lo ≤ i → i ≤ hi → n = (BitVec.ofInt w i).toNat ∧ fl = { Flags.none with nx := decide (r ≠ 0) })
    ∧ (i < lo → n = (BitVec.ofInt w lo).toNat ∧ fl = onlyNv true)
    ∧ (hi < i → n = (BitVec.ofInt w hi).toNat ∧ fl = onlyNv true)

/-- 03 R68, 08 R175: minimumNumber or maximumNumber (big) of two codes of an IEEE format; and what it raises. -/
def fpChosen (eb fb : Nat) (fz big : Bool) (a b : Nat) : Nat :=
  let x := fpFlushed eb fb fz a
  let y := fpFlushed eb fb fz b
  let lower := decide (fpKey eb fb x < fpKey eb fb y ∨ (fpKey eb fb x = fpKey eb fb y ∧ fpSign eb fb x = true))
  if fpNan eb fb a && fpNan eb fb b then fpQnan eb fb else if fpNan eb fb a then y else if fpNan eb fb b then x else if lower != big then x else y

/-- 08 R187: a x 2^s, flushed after scaling. -/
def idealScaled (eb fb : Nat) (fz : Bool) (sh : Int) : FpValue → Ideal
  | .fin neg n =>
    let p := n * 2 ^ sh.toNat
    let q := 2 ^ (-sh).toNat
    ratio neg (if fz ∧ p < 2 ^ fb * fpUnit eb fb * q then 0 else p) q
  | v => idealOf v

/-- 07 R160: the scale byte of a block with these values. -/
def blockScale (vs : List FpValue) : Nat :=
  if vs.any (fun v => match v with | .fin _ _ => false | _ => true) then 255
  else
    let most := vs.foldl (fun m v => max m v.mag) 0
    if most = 0 then 0 else min (Nat.log2 most + 127 - 1074) 254

/-- 08 R180: the word in which an element with these bits is returned. -/
def ReturnedAs (cb : Vector (BitVec 32) 16) (ty : Ty) (n : Nat) (w : Word) (fl : Flags) : Prop :=
  if ty.fmt.isInt then w = BitVec.ofInt 64 (if ty.nat then (n : Int) else (BitVec.ofNat ty.fmt.width n).toInt) ∧ fl = Flags.none
  else if ty.fmt = .fp64 ∨ ty.fmt = .fp32 then w = BitVec.ofNat 64 n ∧ fl = Flags.none
  else w.toNat < 2 ^ 32 ∧ Gives 8 23 .rne false (idealOf (numOf cb ty.fmt n)) w.toNat fl

/-- 07 R166, 08 R189: rng32. -/
def counterRng (key ctr : Word) : Word :=
  let step (x : Word) (j mul : Word) (rot : Nat) : Word :=
    let y := (x ^^^ (key + j * 0x7A3D95C10E6BF249)) * mul
    (y ^^^ (y >>> 29)).rotateLeft rot
  let x := step (step (step ctr 0 0xB5E31F7AC94D2E6B 17) 1 0x8F1D6C39E2A754B3 41) 2 0xD16B4A823F9EC5A7 23
  (x >>> 32) ^^^ (x &&& 0xFFFFFFFF)

/-- 08 R183: the source element of destination element i of a conversion between widths wt and wf; none outside the part. -/
def partSource (p wt wf i : Nat) : Option Nat :=
  let et := 256 / wt
  let ef := 256 / wf
  let j := i % et
  if wt = wf then some i
  else if wf < wt then some (i / et * ef + p * et + j)
  else if j / ef = p then some (i / et * ef + (j - p * ef)) else none

/-- 07 R165: the order of the saliency products of elements p and q, as FP32 codes. -/
def SalFirst (prod : Nat → Nat) (p q : Nat) : Prop :=
  let nan (j : Nat) : Bool := fpNan 8 23 (prod j)
  let size (j : Nat) : Nat := prod j % 2 ^ 31
  if nan p || nan q then nan p = true ∧ (nan q = true → p < q) else size q < size p ∨ (size q = size p ∧ p < q)

/-- 09 R217: combining two integers of w bits. -/
def intJoin (op : ROp) (w : Nat) (nat : Bool) (a b : Nat) : Nat :=
  let v (n : Nat) : Int := if nat then (n : Int) else (BitVec.ofNat w n).toInt
  match op with
  | .add => (a + b) % 2 ^ w
  | .min => if v b < v a then b else a
  | .max => if v a < v b then b else a
  | .and => a &&& b
  | .or => a ||| b
  | .xor => a ^^^ b

/-- 07 R162, 09 R217, R218: `join` combines two codes of a format under a rounding mode: a rounded sum, a minimum or a maximum, or integers. -/
def Joins (ty : Ty) (op : ROp) (mode : Mode) (fz : Bool) (join : Nat → Nat → Nat × Flags) : Prop :=
  let eb := ebOf ty.fmt
  let fb := fbOf ty.fmt
  let rd (n : Nat) : FpValue := (fpNum eb fb n).flushed eb fb fz
  let either (a b : Nat) : Flags := onlyNv (fpSnan eb fb a || fpSnan eb fb b)
  ∀ a b, a < 2 ^ ty.fmt.width → b < 2 ^ ty.fmt.width →
    if ty.fmt.isInt then join a b = (intJoin op ty.fmt.width ty.nat a b, Flags.none)
    else match op with
      | .add => Gives eb fb mode fz (idealAdd mode (rd a) (rd b)) (join a b).1 (join a b).2
      | .min => join a b = (fpChosen eb fb fz false a b, either a b)
      | _ => join a b = (fpChosen eb fb fz true a b, either a b)

/-- 09 R217: what stands for an inactive element of a floating reduction. -/
def identityOf (f : Fmt) (op : ROp) : Nat := if op = .add then fpSigned (ebOf f) (fbOf f) true 0 else fpQnan (ebOf f) (fbOf f)

/-- 07 R162: the tree of 2^depth elements from the first on, and the sum of groups in lane order. -/
def treeOf {α : Type} (join : α → α → α) (e : Nat → α) : Nat → Nat → α
  | 0, i => e i
  | depth + 1, i => join (treeOf join e depth i) (treeOf join e depth (i + 2 ^ depth))

def orderedSum {α : Type} (join : α → α → α) (e : Nat → α) (depth lanes groups : Nat) : Option α :=
  let group (g : Nat) : α := treeOf join e depth (g * 2 ^ depth)
  let lane (l : Nat) : Option α := match (List.range groups).filter (fun g => g % lanes == l) with
    | [] => none
    | g :: r => some (r.foldl (fun p h => join p (group h)) (group g))
  match (List.range lanes).filterMap lane with
  | [] => none
  | p :: r => some (r.foldl join p)

/-- 09 R218: the running value of a scan before element i. -/
def scanBefore (join : Nat → Nat → Nat × Flags) (bit : Nat → Bool) (x : Nat → Nat) (seed : Nat) : Nat → Nat
  | 0 => seed
  | i + 1 => if bit i then (join (scanBefore join bit x seed i) (x i)).1 else scanBefore join bit x seed i

/-- 10 R228: the significand of element k in p planes, word n of which is `word n`. -/
def planeOf (word : Nat → Nat) (p k : Nat) : Int :=
  (((List.range (p - 1)).map (fun n => if (word n).testBit k then 2 ^ n else 0)).sum : Nat) - (if (word (p - 1)).testBit k then 2 ^ (p - 1) else 0 : Nat)

/-- 07 R161: the significand q of a value at precision p against scale byte b, with the flags it raises. -/
def Quantised (p b : Nat) (v : FpValue) (q : Int) (fl : Flags) : Prop :=
  match v with
  | .fin neg n =>
    if b = 255 then q = 0 ∧ fl = onlyNv true
    else
      let num : Nat := n * 2 ^ p
      let den : Nat := 2 ^ (b + 949)
      let a := num / den
      let near := if roundsUp .rne neg (compare den (2 * (num % den))) (a % 2 == 1) = true then a + 1 else a
      q = signedNum neg (min near (2 ^ (p - 1) - 1)) ∧ fl = { Flags.none with nx := decide (q.natAbs * den ≠ num) }
  | _ => q = 0 ∧ fl = onlyNv true

/-- 07 R164: one K-block of significands a and b under scale bytes ba and bb is added to an accumulator. -/
def BlockAdds (fz : Bool) (pa pb : Nat) (a b : Nat → Int) (ba bb acc n : Nat) (fl : Flags) : Prop :=
  ∃ v f1 f2,
    (if ba = 255 ∨ bb = 255 then v = fpQnan 8 23 ∧ f1 = onlyNv true
      else
        let sum : Int := ((List.range 32).map (fun k => a k * b k)).sum
        Gives 8 23 .rne fz (ratio (decide (sum < 0)) (sum.natAbs * 2 ^ (824 + ba + bb - pa - pb)) 1) v f1)
    ∧ Gives 8 23 .rne fz (idealAdd .rne ((fpNum 8 23 acc).flushed 8 23 fz) (fpNum 8 23 v)) n f2 ∧ fl = f1.or f2

/-- Slab lines (10 R227): the word of row r in plane n, and the scale byte of row r, of a slab of p planes at a virtual address of the core window. -/
def slabAt (s : State) (va : Nat) : Nat := coreSram s.me.core + (va - winCore)
def planeWord (s : State) (base r n : Nat) : Nat := s.mem.number (slabAt s (base + 128 * n + 4 * r)) 4
def scaleByte (s : State) (base r p : Nat) : Nat := s.mem.number (slabAt s (base + 128 * p + r)) 1

/-- A slab word that the engine can read: its line is full, and it is not poisoned (10 R232, R237). -/
def SlabFull (s : State) (va n : Nat) : Prop := s.mem.isEmptyAt (slabAt s va) n = false ∧ s.mem.poisonAt (slabAt s va) n = none

/-- Columns of row i of a tile hold `new`, and nothing else of the tiles changes but the marks (10 R225, R239). -/
def TileRowIs (s u : State) (m : MReg) (i cols : Nat) (new : Nat → Nat) : Prop :=
  (u.me.mreg m).tag = 2 ∧ (u.me.mreg m).dirty = true
    ∧ (∀ j, j < 32 → tilePart ((u.me.mreg m).row i) j = if j < cols then new j else tilePart ((s.me.mreg m).row i) j)
    ∧ (∀ r, r < 32 → r ≠ i → (u.me.mreg m).row r = (s.me.mreg m).row r) ∧ ∀ n, n ≠ m → u.me.mreg n = s.me.mreg n

/-- The rows of a list are performed one after another, from s to u (10 R231). -/
def TileRows : State → Work → List Nat → State → Prop
  | s, _, [], u => u = s
  | s, w, i :: r, u => ∃ v, s.tileRow w i = .ok v
      ∧ TileRows (v.withEntry 0 (fun e => { e with vstart := i + 1, map0 := e.map0 ||| BitVec.twoPow 256 i })) w r u

/-- 03 R68: minimum, maximum, comparisons and class of one format. The operands are a and b as naturals of the format's width. -/
def ComparesAs (s : State) (d : XReg) (eb fb a b : Nat) (fmin fmax feq flt fle fclass : Instr) : Prop :=
  let x := fpFlushed eb fb s.me.fz a
  let y := fpFlushed eb fb s.me.fz b
  let nanA := fpNan eb fb a
  let nanB := fpNan eb fb b
  let sig := fpSnan eb fb a || fpSnan eb fb b
  let lower := decide (fpKey eb fb x < fpKey eb fb y ∨ (fpKey eb fb x = fpKey eb fb y ∧ fpSign eb fb x = true))
  FpWrote s (exec fmin s) d (fun w fl => fl = onlyNv sig
    ∧ w.toNat = if nanA && nanB then fpQnan eb fb else if nanA then y else if nanB then x else if lower then x else y)
  ∧ FpWrote s (exec fmax s) d (fun w fl => fl = onlyNv sig
    ∧ w.toNat = if nanA && nanB then fpQnan eb fb else if nanA then y else if nanB then x else if lower then y else x)
  ∧ FpWrote s (exec feq s) d (fun w fl => fl = onlyNv sig
    ∧ w = if !nanA && !nanB && decide (fpKey eb fb x = fpKey eb fb y) then 1 else 0)
  ∧ FpWrote s (exec flt s) d (fun w fl => fl = onlyNv (nanA || nanB)
    ∧ w = if !nanA && !nanB && decide (fpKey eb fb x < fpKey eb fb y) then 1 else 0)
  ∧ FpWrote s (exec fle s) d (fun w fl => fl = onlyNv (nanA || nanB)
    ∧ w = if !nanA && !nanB && decide (fpKey eb fb x ≤ fpKey eb fb y) then 1 else 0)
  ∧ Wrote s (exec fclass s) d (BitVec.twoPow 64 (fpClassBit eb fb a))

/-- The instruction continues at the next word and changes nothing else. -/
def Skipped (s : State) (o : Out) : Prop := o = .next { s with me := { s.me with pc := s.me.pc + 8 } }

/-- A trap would reach a handler: no trap is in progress and TVEC is not 0 (04 R101). -/
def TrapsHandled (s : State) : Prop := s.me.tip = false ∧ s.me.tvec ≠ 0

/-- The handler of an access-processor trap at the instruction of `s` starts in `t` (04 R97 to R101, 02 R45): what is written, and what
stays. A running mma, mld or mst would also leave its row in VSTART (R99). -/
def TrapEntered (s t : State) (code : BitVec 8) (detail : BitVec 12) (addr : Word) : Prop :=
  t.me.pc = s.me.tvec ∧ t.me.priv = .sup ∧ t.me.psup = decide (s.me.priv = .sup) ∧ t.me.tip = true
    ∧ t.me.held = !s.me.win.isEmpty
    ∧ t.me.epc = s.me.pc ∧ t.me.ecause = code.setWidth 64 ∧ t.me.einfo = detail ++ s.me.pc.setWidth 52 ∧ t.me.eaddr = addr
    ∧ t.me.estream = 0
    ∧ (∀ w, s.fetchAt s.me.pc = .ok w →
        t.me.eslot = if w.extractLsb' 62 2 = 1 then (if s.me.only1 then 3 else 2) else 0)
    ∧ (s.me.win.head?.bind Entry.rowStop = none → t.me.vstart = s.me.vstart)
    ∧ t.me.x = s.me.x ∧ t.me.flags = s.me.flags ∧ t.me.rm = s.me.rm ∧ t.me.fz = s.me.fz
    ∧ t.me.v = s.me.v ∧ t.me.k = s.me.k ∧ t.me.m = s.me.m ∧ t.me.e = s.me.e
    ∧ t.me.vl = s.me.vl ∧ t.me.vtype = s.me.vtype ∧ t.me.tvec = s.me.tvec ∧ t.me.vals = s.me.vals ∧ t.me.owed = s.me.owed
    ∧ t.mem = s.mem ∧ t.others = s.others ∧ t.time = s.time

/-- `o` is the entry of that trap. -/
def Trapped (s : State) (o : Out) (code : BitVec 8) (detail : BitVec 12) (addr : Word) : Prop :=
  ∃ t, o = .next t ∧ TrapEntered s t code detail addr

/-- A DBGCTL.STEP of a core has been used up (04 R111). -/
def stepEnded (t : State) (core : Nat) : State := { t with cores := t.cores.map (fun c => if c.core = core then { c with stepping := false } else c) }

/-- Memory of `t` is that of `s` but for the bytes `bs` from home address `h` on. -/
def Stored (s t : State) (h : Nat) (bs : List Byte) : Prop :=
  (∀ i, i < bs.length → t.mem.byte (h + i) = bs.getD i 0) ∧ (∀ a, a < h ∨ h + bs.length ≤ a → t.mem.byte a = s.mem.byte a)

/-- A scalar access of n bytes at ea passes the checks of 03 R72 and reads the bytes l, in memory, in the capability table, or in the
reply of another package; `s1` is the state once they are read (03 R71 to R73, 18 R312, R317, 21 R384). -/
def LoadGives (s : State) (ea : Word) (n : Nat) (l : List Byte) (s1 : State) : Prop :=
  ∃ x, s.checkAccess .load ea n = .ok x ∧
    ((∃ h, x.place = .near h ∧ s.mem.isEmptyAt h n = false ∧ s.mem.poisonAt h n = none
        ∧ l = s.mem.seenBytes (if x.cached then some (s.me.core, s.me.need) else none) h n
        ∧ s1 = (s.afterRead x.cached s.me.need h).hit none ea)
      ∨ (∃ o, x.place = .cap o ∧ l = s.capBytes o n ∧ s1 = s.hit none ea)
      ∨ (∃ pkg a r bs, x.place = .far pkg a ∧ s.me.remote.find? (fun r => r.pkg == pkg && r.addr == a && r.size == n) = some r
        ∧ r.reply = .data bs ∧ bs.any (·.2) = false ∧ l = bs.map (·.1)
        ∧ s1 = ({ s with me := { s.me with remote := s.me.remote.erase r } } : State).hit none ea))

/-- The scalar loads and stores of 03 R71 with the address and the size each accesses. -/
noncomputable def scalarLoads (s : State) (d xa : XReg) (i : Imm19) (j : Imm32) : List (Instr × Word × Nat) :=
  let ea := s.getX xa + i.signExtend 64
  let eaL := s.getX xa + j.signExtend 64
  [(.ldI8 d xa i, ea, 1), (.ldN8 d xa i, ea, 1), (.ldI16 d xa i, ea, 2), (.ldN16 d xa i, ea, 2), (.ldI32 d xa i, ea, 4),
    (.ldN32 d xa i, ea, 4), (.ldI64 d xa i, ea, 8), (.ldI8Long d xa j, eaL, 1), (.ldN8Long d xa j, eaL, 1),
    (.ldI16Long d xa j, eaL, 2), (.ldN16Long d xa j, eaL, 2), (.ldI32Long d xa j, eaL, 4), (.ldN32Long d xa j, eaL, 4),
    (.ldI64Long d xa j, eaL, 8)]

noncomputable def scalarStores (s : State) (d xa : XReg) (i : Imm19) (j : Imm32) : List (Instr × Word × Nat) :=
  let ea := s.getX xa + i.signExtend 64
  let eaL := s.getX xa + j.signExtend 64
  [(.st8 d xa i, ea, 1), (.st16 d xa i, ea, 2), (.st32 d xa i, ea, 4), (.st64 d xa i, ea, 8),
    (.st8Long d xa j, eaL, 1), (.st16Long d xa j, eaL, 2), (.st32Long d xa j, eaL, 4), (.st64Long d xa j, eaL, 8)]

/-- The atomics of 03 R77 and R78, 64-bit (w32 false) or 32-bit. -/
noncomputable def scalarAtomics (s : State) (w32 : Bool) (d xa xb xc : XReg) (i : Imm19) : List (Instr × Word × Nat) :=
  let ea := s.getX xa + i.signExtend 64
  let n := if w32 then 4 else 8
  [(.amoSwap w32 d xa xb i, ea, n), (.amoAdd w32 d xa xb i, ea, n), (.amoAnd w32 d xa xb i, ea, n), (.amoOr w32 d xa xb i, ea, n),
    (.amoXor w32 d xa xb i, ea, n), (.amoMinI w32 d xa xb i, ea, n), (.amoMaxI w32 d xa xb i, ea, n),
    (.amoMinN w32 d xa xb i, ea, n), (.amoMaxN w32 d xa xb i, ea, n),
    (if w32 then .cas32 d xa xb xc i else .cas64 d xa xb xc i, ea, n)]

/-- The scalar accesses of a kind. -/
noncomputable def scalarAccesses (s : State) (w32 : Bool) (acc : Acc) (d xa xb xc : XReg) (i : Imm19) (j : Imm32) :
    List (Instr × Word × Nat) :=
  match acc with
  | .load => scalarLoads s d xa i j
  | .store => scalarStores s d xa i j
  | .atomic => scalarAtomics s w32 d xa xb xc i
  | .fetch => []

/-- Every byte of memory reads as before. -/
def MemoryKept (s t : State) : Prop := ∀ a, t.mem.byte a = s.mem.byte a

/-- Nothing of the thread in focus changes but the pc and what `f` puts back. -/
def OnlyMe (s t : State) : Prop := t = { s with me := t.me }

/-- The CSR numbers that are assigned (01 R16), and those that only a supervisor reaches (01 R15, R16). -/
def AssignedCsr (n : Nat) : Prop :=
  n ≤ 0x005 ∨ (0x100 ≤ n ∧ n ≤ 0x104) ∨ (0x200 ≤ n ∧ n ≤ 0x208) ∨ (0x300 ≤ n ∧ n ≤ 0x309) ∨ (0x400 ≤ n ∧ n ≤ 0x406) ∨ n = 0x500
    ∨ n = 0x501 ∨ (0x510 ≤ n ∧ n ≤ 0x52F) ∨ (0x530 ≤ n ∧ n ≤ 0x53C)
def SupervisorCsr (n : Nat) : Prop := 0x300 ≤ n ∧ n ≤ 0x4FF

/-- A CSR access goes ahead (01 R16, 03 R90): assigned, permitted, and for FCSR and VSTART no execute-class instruction is under way, nor for FCSR
a scatter-add that has yet to raise its flags (07 R148). -/
def CsrReady (s : State) (n : Nat) : Prop :=
  AssignedCsr n ∧ (SupervisorCsr n → s.me.priv = .sup) ∧ (n = 0x000 ∨ n = 0x102 → s.me.held = true ∨ s.me.win = [])
    ∧ (n = 0x000 → ∀ g ∈ s.me.gq, ∀ h ∈ g, h.adds = [])

/-- The five forms of a CSR access (03 R89). -/
noncomputable def csrForm (op : CsrOp) (d : XReg) (csr : BitVec 12) (a : XReg) : Instr :=
  match op with
  | .r => .csrr d csr
  | .w => .csrw csr a
  | .rw => .csrrw d csr a
  | .s => .csrs d csr a
  | .c => .csrc d csr a

/-- What a form writes to the CSR (03 R89), given the old value and xA. -/
def csrWritten (op : CsrOp) (old x : Word) : Option Word :=
  match op with
  | .r => none
  | .w => some x
  | .rw => some x
  | .s => some (old ||| x)
  | .c => some (old &&& ~~~x)

/-- The writable bits of the CSRs that are a thread's own (01 R16, 04 R97 to R100, 14 R271); every other bit of those keeps its value. -/
def csrMask (n : Nat) : Word :=
  match n with
  | 0x000 => 0xFF
  | 0x102 => 0xFFFFFFFFFFFFFFFF
  | 0x200 => 0xFFFFFFFFFFFFFFFF
  | 0x201 => 0xFFFFFFFFFFFFFFFF
  | 0x202 => 0x1FFFFFF
  | 0x203 => 0xFFFFFFFFFFFFFFFF
  | 0x204 => 0x1FFFF
  | 0x205 => 0x3FF
  | 0x206 => 0xFFFFFFFFFFFFFFFF
  | 0x207 => 0xFFFFFFFFFFFFFFFF
  | 0x300 => 0xFFFFFFFFFFFFFFF8
  | 0x301 => 0x3FF
  | 0x302 => 0xFFFFFFFFFFFFFFFF
  | 0x303 => 0xFFFFFFFFFFFFFFFF
  | 0x304 => 0x3
  | 0x305 => 0xC0000003FFFFFFFF
  | 0x306 => 0xFFFFFFFFFFFFFFFF
  | 0x307 => 0xFFFFFFFFFFFFFFFF
  | 0x308 => 0xFFFFFFFFFFFFFFF8
  | 0x309 => 0x3
  | _ => 0

/-- The thread's cluster is one of the package, and its number is no other cluster's. -/
def ClusterKnown (s : State) : Prop := s.clusters.any (fun c => c.id == s.me.cluster) = true

/-- A 64-byte block at ea passes the checks of 03 R72 and reads as b, in memory, in the capability table, or in the replies of another package; `s1` is
the state once it is read (15 R289, 14 R277, 08 R191). -/
def BlockGives (s : State) (ea : Word) (b : BitVec 512) (s1 : State) : Prop :=
  ∃ x, s.checkAccess .load ea 64 = .ok x ∧
    ((∃ h, x.place = .near h ∧ s.mem.isEmptyAt h 64 = false ∧ s.mem.poisonAt h 64 = none ∧ s1 = (s.afterRead x.cached s.me.need h).hit none ea
        ∧ b = BitVec.ofNat 512 (leNat (s.mem.seenBytes (if x.cached then some (s.me.core, s.me.need) else none) h 64)))
      ∨ (∃ o, x.place = .cap o ∧ b = BitVec.ofNat 512 (leNat (s.capBytes o 64)) ∧ s1 = s)
      ∨ ∃ pkg a, x.place = .far pkg a ∧ s.readFarBlock pkg a ea = .data b s1)

/-- Crew records after one member has left a crew (01 R11, 15 R283): a record with no member and no live launch is freed. -/
def crewsLeft (s : State) (num : BitVec 16) : List Crew :=
  (s.crews.map (fun c => if c.num = num then { c with members := c.members - 1 } else c)).filter
    (fun c => c.members != 0 || c.live != 0)

/-- The reasons of 15 R290 for rejecting a launch block, by number. -/
def LaunchBad (s : State) (b : BitVec 512) (n : Nat) : Prop :=
  let entry := (b.extractLsb' 0 64).toNat
  let count := (b.extractLsb' 128 32).toNat
  let crew := b.extractLsb' 160 16
  let mode := (b.extractLsb' 176 8).toNat
  let grant := (b.extractLsb' 184 8).toNat
  let record := s.crews.find? (fun c => c.num == crew)
  let named (cl : Nat) : Prop := cl < 96 ∧ (s.cluster cl).enabled = true ∧ (b.extractLsb' 256 128 = 0 ∨ b.getLsbD (256 + cl) = true)
  match n with
  | 1 => entry % 8 ≠ 0 ∨ 2 ^ 52 ≤ entry
  | 2 => count = 0 ∨ 1048576 < count
  | 3 => 3 < mode ∨ grant = 0 ∨ 8 < grant ∨ b.extractLsb' 195 4 ≠ 0 ∨ b.extractLsb' 200 24 ≠ 0
  | 4 => b.getLsbD 199 = true ∧ s.me.priv = .job
  | 5 => b.extractLsb' 352 32 ≠ 0 ∨ ¬ ∃ cl, named cl
  | 6 => b.extractLsb' 384 64 = 0 ∨ (b.extractLsb' 384 64).toNat % 64 ≠ 0 ∨ (b.extractLsb' 448 64).toNat % 4 ≠ 0
  | 7 => (mode = 0 ∧ crew ≠ 0) ∨ (1 ≤ mode ∧ mode ≤ 3 ∧ crew = 0) ∨ ((mode = 1 ∨ mode = 3) ∧ record ≠ none)
      ∨ (mode = 2 ∧ (record = none ∨ ∃ c, record = some c ∧ c.gang ≠ none))
  | 8 => mode = 3 ∧ ¬ ∃ cl, named cl ∧ count ≤ ((List.range 16).filter (fun k => s.coreLanes (16 * cl + k) != 0)).length
  | _ => False

/-- Whether the limits of 15 R289 have room for the threads of a block, and enough thread numbers are free (log 5). -/
def LaunchFits (s : State) (b : BitVec 512) : Prop :=
  (s.launches.filter (fun l => l.live)).length < 4096
    ∧ ((s.me :: s.others).filter (fun t => t.status != .retired)).length + (b.extractLsb' 128 32).toNat ≤ 4194304
    ∧ ((s.me :: s.others).filter (fun t => !s.reusable t)).length + (b.extractLsb' 128 32).toNat ≤ 2 ^ 24

/-- Thread number k of launch `lid` of block b as it is created (01 R14, R16; 04 R100; 15 R291). -/
def CreatedThread (s : State) (b : BitVec 512) (lid k : Nat) (u : Thread) : Prop :=
  u.lid = lid ∧ u.idx = k ∧ u.status = .created ∧ u.pc = b.extractLsb' 0 64
    ∧ (∀ r, u.getX r = if r = 1 then b.extractLsb' 64 64 else if r = 2 then BitVec.ofNat 64 k
        else if r = 3 then (b.extractLsb' 128 32).setWidth 64 else 0)
    ∧ u.v = Vector.replicate 32 ⟨Vector.replicate 32 0, 0, false, 0, BitVec.allOnes 32, 0⟩
    ∧ u.k = Vector.replicate 8 ⟨0, false, 0⟩ ∧ u.m = Vector.replicate 4 ⟨Vector.replicate 32 0, 0, false, 0⟩
    ∧ u.e = Vector.replicate 8 ⟨0, false, 0⟩
    ∧ u.vl = 0 ∧ u.vtype.vill = true ∧ u.vstart = 0 ∧ u.codebook = Vector.replicate 16 0
    ∧ u.streams.toList.all (fun st => !st.opened) = true ∧ u.win = [] ∧ u.vals = [] ∧ u.owed = [] ∧ u.st = [] ∧ u.gq = []
    ∧ u.priv = (if b.getLsbD 199 then .sup else .job) ∧ u.tvec = s.me.tvec ∧ u.crew = b.extractLsb' 160 16 ∧ u.root = s.me.root
    ∧ u.flags = Flags.none ∧ u.rm = 0 ∧ u.fz = false

/-- What a fence waits for (11 R257): the accesses of the paths in `pred` (bit 0 S, 1 V, 2 M, 3 C, 4 G, 5 W, 6 F) that are not complete. Without
`uo`, accesses to UO pages (kind 2) are not covered; a held window is not waited for (04 R104). -/
def FenceReady (s : State) (uo : Bool) (pred : BitVec 7) : Prop :=
  let t := s.me
  let uncovered (p : Nat × Entry) : Prop := uo = false ∧ s.uoEntry p.1 p.2 = true
  let open_ (p : Nat × Entry) : Prop := t.held = false ∧ t.win[p.1]? = some p.2
  let performed (l : List (List StoreGroup)) : Prop := ∀ g ∈ l, ∀ h ∈ g, uo = false ∧ h.kind = 2
  (pred.getLsbD 1 = true → (∀ p, open_ p → uncovered p) ∧ performed t.st)
    ∧ (pred.getLsbD 2 = true → ∀ p, open_ p → ∀ op ∈ p.2.ops, op.isMatrix = false)
    ∧ (pred.getLsbD 3 = true → ∀ c ∈ (s.cluster t.cluster).copies, c.tid ≠ t.tid)
    ∧ (pred.getLsbD 4 = true → (∀ p, open_ p → p.2.op.isAwl = true → uncovered p) ∧ performed t.gq)
    ∧ (pred.getLsbD 5 = true → ∀ w ∈ (s.cluster t.cluster).welts, w.tid ≠ t.tid)
    ∧ (pred.getLsbD 6 = true → ∀ p, open_ p → s.readsFar p.1 p.2 = false)

/-- No remote write of the thread is still in its lanes, its buffers or a copy (21 R385, R393; log 17: a held window counts as passed). -/
def WritesLeft (s : State) : Prop :=
  (∀ c ∈ (s.cluster s.me.cluster).copies, c.tid = s.me.tid → c.failed = none → ∀ l ∈ c.lines, l ∉ c.landed → s.copyPkg c l = none) ∧
  (∀ g ∈ s.me.st ++ s.me.gq, ∀ h ∈ g, h.far = []) ∧ ∀ k e, s.me.held = false → s.me.win[k]? = some e → s.writesFar k e = false

/-- The state after the successor side of a fence (11 R257): later S and V reads find no line of the core's data L1 at scope dl or wider,
and later V reads nothing that a stream read ahead but what a rendezvous has popped already. -/
def afterFence (s : State) (sc : Scope) (succ : BitVec 7) : State :=
  let drop := sc ≠ .lg ∧ sc ≠ .co ∧ (succ.getLsbD 0 = true ∨ succ.getLsbD 1 = true)
  { s with
    mem := { s.mem with l1 := if drop then s.mem.l1.filter (fun c => c.core != s.me.core) else s.mem.l1 }
    me := if succ.getLsbD 1 = true then { s.me with streams := Vector.ofFn (fun n =>
      { s.me.streams[n] with ahead := s.me.streams[n].ahead.filter (fun a => s.me.popped n.val a.1) }) } else s.me }

/-- The scope of the scratchpad level a home lies in (15 R296). -/
def buoyScope (h : Nat) : Scope := if h < clusterSram 0 then .co else if h < chipSram 0 then .dl else .ch

/-- What a completion writes at an address of a launch's address space (15 R295): the bytes, where the address names memory of the package below the
scratchpad windows, and otherwise nothing; `t` is `s` with that memory. -/
def LaunchWrites (s t : State) (env : Env) (a : Word) (bs : List Byte) : Prop :=
  t = { s with mem := t.mem } ∧ (s.mem.wf = true → t.mem.wf = true)
    ∧ (∀ x h, a.toNat < 0x000FFF0000000000 → s.engineXlat env .store a 2 = .ok x → x.place = .near h → s.mem.wf = true → Stored s t h bs)
    ∧ ((0x000FFF0000000000 ≤ a.toNat ∨ ∀ x h, s.engineXlat env .store a 2 = .ok x → x.place ≠ .near h) → t.mem = s.mem)

/-- A buoy of the thread's core, cluster or chiplet scratchpad, aligned and reachable, at home h (15 R296). -/
def BuoyAt (s : State) (acc : Acc) (ea : Word) (h : Nat) : Prop :=
  ea.toNat % 16 = 0 ∧ 0x000FFF0000000000 ≤ ea.toNat ∧ isScratch h = true ∧ ∃ x, s.translate s.env acc none ea = .ok x ∧ x.place = .near h

/-- A wait ends at `s` (01 R24, 14 R269): the thread runs, and a wait that tested memory leaves no line of that word in its core's data L1 (03 R74);
what depends on its status follows the test (11 R249). -/
def waitOver (s : State) (w : Wait) : State :=
  { s with
    me := { s.me with wait := none, status := .running
                      dep := if w.kind = .copy then s.me.dep else (s.me.loadedNow w.dest s.time).dep }
    mem := { s.mem with l1 := if w.kind = .copy then s.mem.l1
                              else s.mem.l1.filter (fun c => !(c.core == s.me.core && c.line == w.target / 128)) } }

/-- A wait begins at `s` (14 R269): `met` says whether its condition holds, `after` is what follows status 0. It answers 0 where the
condition holds, 1 where the bound has passed, and else the thread waits for w. -/
def WaitBegins (s : State) (after : State → State) (o : Out) (d : XReg) (w : Wait) (met : Prop) : Prop :=
  (met → Answers s (after (waitOver s w)) o (s.me.pc + 8) d 0)
    ∧ (¬ met → w.deadline ≤ s.time → Answers s (waitOver s w) o (s.me.pc + 8) d 1)
    ∧ (¬ met → s.time < w.deadline → o = .next { s with me := { s.me with wait := some w, status := .waiting } })

/-- An execute-class operation passes the checks made at its issue (08 R171, 04 R104): no window is held, and none of the checks of
06 R120, 07 R144, 09 R207 and 10 R232 finds a fault. -/
def IssueOk (s : State) (op : EOp) : Prop := s.me.held = false ∧ s.me.atIssue.issueFail op (op.xs.map s.getX) = none

/-- The state in which operations stand as the youngest entry of the window, in cmd (01 R19, 04 R94, 06 R122): the captured scalars, VL, VTYPE,
SHAPE, VSTART and rounding mode of the issue; VSTART is 0 afterwards but for a control form (09 R204, R214); the next word follows. -/
def Entered (s t : State) (op : EOp) (op2 : Option EOp) (scal : List Word) (desc : BitVec 512) : Prop :=
  ∃ e : Entry, t = { s with me := { s.me with
      win := s.me.win ++ [e], vstart := if op.isForm then s.me.vstart else 0, pc := s.me.pc + 8, only1 := t.me.only1 } }
    ∧ e.idle = false ∧ e.op = op ∧ e.op2 = op2 ∧ e.scal = scal ∧ e.desc = desc ∧ e.pc = s.me.pc ∧ e.word = s.me.iw ∧ e.vl = s.me.vl ∧ e.vtype = s.me.vtype
    ∧ e.shape = BitVec.ofNat 64 (s.me.rows.toNat + 256 * s.me.cols.toNat) ∧ e.held = [] ∧ e.ret = op.returns
    ∧ e.queued = false ∧ e.delivered = 0 ∧ e.mq = false ∧ e.rm = s.me.rm ∧ e.fz = s.me.fz
    ∧ e.vstart = (if op.isMeeting || op.isForm then 0 else s.me.vstart.toNat)

/-- Whether a word's operations perform nothing (06 R122, 10 R226). -/
def PerformsNothing (s : State) (op : EOp) : Prop := performsNothing op s.me.vl s.me.vstart.toNat s.me.shape = true

/-- Register forms of access-class slots (02 R43) and the values they write, read from `s`. -/
noncomputable def slotValue (s : State) (p : Slot) : Option Word :=
  let a := s.getX p.a
  let b := s.getX p.b
  let i := p.y.signExtend 64
  let n := (p.y.extractLsb' 0 6).toNat
  match p.pop with
  | .add => some (a + b)
  | .sub => some (a - b)
  | .and => some (a &&& b)
  | .or => some (a ||| b)
  | .xor => some (a ^^^ b)
  | .sll => some (a <<< (b.extractLsb' 0 6).toNat)
  | .srl => some (a >>> (b.extractLsb' 0 6).toNat)
  | .sra => some (a.sshiftRight (b.extractLsb' 0 6).toNat)
  | .mul => some (a * b)
  | .minI64 => some (if a.sle b then a else b)
  | .maxI64 => some (if a.sle b then b else a)
  | .minN64 => some (if a ≤ b then a else b)
  | .maxN64 => some (if a ≤ b then b else a)
  | .sltI64 => some (if a.slt b then 1 else 0)
  | .sltN64 => some (if a < b then 1 else 0)
  | .addImm => some (a + i)
  | .andImm => some (a &&& i)
  | .orImm => some (a ||| i)
  | .xorImm => some (a ^^^ i)
  | .sllImm => some (a <<< n)
  | .srlImm => some (a >>> n)
  | .sraImm => some (a.sshiftRight n)
  | .li => some i
  | _ => none

/-- An element operation of width n answers the bits v and raises no flag. -/
def ElementIs (s : State) (op : EOp) (w : Work) (i : Nat) (v : Nat) : Prop := s.compute { w with op := op } i = .ok (v, Flags.none)

/-- A predicate of vcmp on two integers (08 R175, R177). -/
def predTrue (p : Pred) (x y : Int) : Prop :=
  match p with
  | .eq => x = y
  | .ne => x ≠ y
  | .lt => x < y
  | .le => x ≤ y
  | .gt => y < x
  | .ge => y ≤ x

/-- A change of one cluster. -/
def withClusterBy (s : State) (cl : Nat) (f : Cluster → Cluster) : State :=
  { s with clusters := s.clusters.map (fun c => if c.id = cl then f c else c) }

/-- The first element with a property is replaced by some others. -/
def firstBy {α : Type} (p : α → Bool) (f : α → List α) : List α → List α
  | [] => []
  | a :: r => if p a = true then f a ++ r else a :: firstBy p f r

/-- A change of the copy of a cluster that has a number, of which the identifier is the low 16 bits (14 R272). -/
def withCopyBy (s : State) (cl id : Nat) (f : Copy → Copy) : State :=
  withClusterBy s cl (fun c => { c with copies := firstBy (fun x => decide (x.id = id)) (fun x => [f x]) c.copies })

/-- A copy leaves its cluster. -/
def copyGone (s : State) (cl id : Nat) : State :=
  withClusterBy s cl (fun c => { c with copies := firstBy (fun x => decide (x.id = id)) (fun _ => []) c.copies })

/-- Memory m is that of `s` but that the scratchpad lines which a copy has not filled are full, and the words it has not written poisoned (14 R275). -/
def LinesSpoilt (s : State) (m : Mem) (c : Copy) : Prop :=
  m = { s.mem with poison := m.poison, empties := m.empties } ∧ ∀ l ∈ c.lines, l ∉ c.landed → ∀ b ∈ c.bytesOf l, ∀ x h,
    s.engineXlat c.env .store b.2.2 = .ok x → x.place = .near h → isScratch h = true → h / 8 ∈ m.poison ∧ h / 128 ∉ m.empties

/-- The reasons of 14 R272 for rejecting the copy that the shadows of the thread in focus describe, by number. -/
def CopyBad (s : State) (n : Nat) : Prop :=
  let len := s.me.ce[2].toNat
  let rows := s.me.ce[4].toNat
  let mode := s.me.ce[5]
  let flag := s.me.ce[6]
  let gang := mode.getLsbD 0
  let src (r : Nat) : Word := s.me.ce[0] + BitVec.ofNat 64 r * (s.me.ce[3].extractLsb' 0 32).signExtend 64
  let dst (r : Nat) : Word := s.me.ce[1] + BitVec.ofNat 64 r * (s.me.ce[3].extractLsb' 32 32).signExtend 64
  let last (a : Word) : Word := a + BitVec.ofNat 64 (len - 1)
  let some' (p : Word → Prop) : Prop := ∃ r, r < rows ∧ (p (src r) ∨ (gang = false ∧ p (dst r)))
  match n with
  | 1 => len = 0 ∨ 16777216 < len
  | 2 => rows = 0 ∨ 65536 < rows
  | 3 => flag.toNat % 16 ≠ 0 ∨ (flag ≠ 0 ∧ ¬ (0x000FFF0000000000 ≤ flag.toNat
      ∧ ∃ x h, s.engineXlat ⟨s.me.core, 0xFF, s.me.root, s.me.priv⟩ .store flag = .ok x ∧ x.place = .near h ∧ isScratch h = true))
  | 4 => some' (fun a => 2 ^ 52 ≤ a.toNat ∨ 2 ^ 52 ≤ (last a).toNat)
  | 5 => gang = false ∧ (∃ r q, r < rows ∧ q < rows ∧ (src r).toNat ≤ (last (dst q)).toNat)
      ∧ ∃ r q, r < rows ∧ q < rows ∧ (dst q).toNat ≤ (last (src r)).toNat
  | 6 => gang = true ∧ ¬ ∃ cl l, s.gangOf s.me = some (cl, l) ∧ rows = 1 ∧ s.me.ce[1] = 0 ∧ len % 32 = 0 ∧ len ≤ 128 * l
      ∧ 1 ≤ (mode.extractLsb' 1 4).toNat ∧ (mode.extractLsb' 1 4).toNat ≤ 12
  | 9 => some' (fun a => winLane ≤ (last a).toNat ∧ a.toNat < winLane + 65536)
  | _ => False

/-- An engine (unit 0 the copy engine, 1 the Welt unit) reads n bytes at va as the little-endian number v: memory of the package, no empty line, no poison (17 R306, 14 R278). -/
def EngineReads (s : State) (unit : Nat) (env : Env) (va : Word) (n v : Nat) : Prop :=
  ∃ h : Nat → Nat, (∀ i, i < n → ∃ x, s.engineXlat env .load (va + BitVec.ofNat 64 i) unit = .ok x ∧ x.place = .near (h i)
      ∧ s.mem.isEmptyAt (h i) 1 = false ∧ s.mem.poisonAt (h i) 1 = none)
    ∧ v = leNat ((List.range n).map (fun i => s.mem.byte (h i)))

/-- The words an engine writes at a flag address: 16 bytes at home h, or nothing for flag 0 (14 R273, R275). -/
def FlagWritten (s t : State) (env : Env) (flag lo hi : Word) : Prop :=
  (flag = 0 → MemoryKept s t)
    ∧ ∀ x h, flag ≠ 0 → s.engineXlat env .store flag = .ok x → x.place = .near h → s.mem.wf = true →
      Stored s t h (leBytes 8 lo.toNat ++ leBytes 8 hi.toNat)

/-- A Welt block whose fields obey 14 R278. -/
def WeltFieldsOk (b : BitVec 512) : Prop :=
  let op := (b.extractLsb' 0 2).toNat
  let tag := (b.extractLsb' 4 4).toNat
  op < 2 ∧ (op = 1 → b.getLsbD 2 = false) ∧ b.getLsbD 3 = false ∧ b.extractLsb' 8 24 = 0
    ∧ ((1 ≤ tag ∧ tag ≤ 4) ∨ (9 ≤ tag ∧ tag ≤ 12)) ∧ (b.extractLsb' 32 32).toNat + (b.extractLsb' 64 32).toNat ≤ 4294967296
    ∧ (b.extractLsb' 128 64).toNat % 32 = 0 ∧ (b.extractLsb' 192 64).toNat % 32 = 0 ∧ (op = 1 → b.extractLsb' 192 64 = 0)

/-- The block that a cluster's Welt unit performs is w; others wait behind it. -/
def WeltHead (s : State) (cl : Nat) (w : WeltBlock) : Prop := (s.cluster cl).welts.head? = some w

/-- A header as 14 R278 lays it out: CSR, or dense. -/
def WeltHeadOk (dense : Bool) (h : BitVec 256) : Prop :=
  h.extractLsb' 192 64 = 0 ∧ (dense = true →
    h.extractLsb' 160 32 = 0 ∧ 1 ≤ (h.extractLsb' 128 32).toNat ∧ (h.extractLsb' 128 32).toNat ≤ 65536)

/-- A Welt block ends (14 R281, R265): its record is written at home h of FLAG, the lines it wrote become full, it leaves the queue. -/
def WeltEnds (s t : State) (cl : Nat) (w : WeltBlock) (lines : List Nat) (status : BitVec 32) (next : Nat) (fault : Word) : Prop :=
  t = { withClusterBy s cl (fun c => { c with welts := c.welts.tail }) with mem := t.mem, launches := t.launches }
    ∧ (∀ l ∈ lines, l ∉ t.mem.empties)
    ∧ ∀ x h, s.engineXlat w.env .store (w.block.extractLsb' 448 64) 1 = .ok x → x.place = .near h → s.mem.wf = true →
      Stored s t h (leBytes 4 status.toNat ++ leBytes 4 next ++ leBytes 8 fault.toNat)

/-- A cache of a core takes line l: nothing else comes in; a set that is full gives up the line used least recently, which stands first
(05 R113, 06 R140, log 8). -/
def CacheTakes (old new : List CacheLine) (ways : Nat) (same : CacheLine → Bool) (l : CacheLine) : Prop :=
  l ∈ new ∧ (∀ y ∈ new, y = l ∨ y ∈ old) ∧ (∀ y ∈ old, same y = false → y ∈ new)
    ∧ ((old.filter same).length < ways → new = old ++ [l])
    ∧ ∀ y r, (old.filter same).length = ways → old.filter same = y :: r → new.filter same = r ++ [l]

/-- A cache of a core uses a line it holds: the same lines stay, and that line is now the one used most recently. -/
def CacheUses (old new : List CacheLine) (core line : Nat) : Prop :=
  (∀ y, y ∈ new ↔ y ∈ old) ∧ ∃ y, new.getLast? = some y ∧ y.core = core ∧ y.line = line

/-- The same state with thread u in focus. -/
def focusOn (s : State) (u : Thread) : State :=
  { s with me := u, others := s.others.map (fun o => if o.tid = u.tid then s.me else o) }

/-- The focus goes back to thread `mine`. -/
def focusBack (t : State) (mine : Nat) : State :=
  match t.others.find? (fun o => o.tid == mine) with
  | none => t
  | some back => { t with me := back, others := t.others.map (fun o => if o.tid = mine then t.me else o) }

/-- The events of the table that act on the window and the stores of one thread, each for thread number n. -/
noncomputable def threadEvents (n a b : Nat) : List Instr :=
  [.broadcast n, .laneGroupExecute n a, .loadGroupLand n a b, .emptyLineFilledWake n, .storeRelease n, .storePerform n a, .gRelease n,
    .scatterAddPerform n, .laneDeliver n a, .rendezvousDone n, .streamPrefetch n a b, .trapEntry n]

/-- What one byte of memory holds once masked bytes are written in order (06 R134, 11 R244). -/
def byteAfter (bs : List MaskedByte) (a : Nat) (old : Byte) : Byte :=
  bs.foldl (fun v b => if b.addr = a then (v &&& ~~~b.mask) ||| (b.data &&& b.mask) else v) old

/-- A thread as it is parked (04 R109, 11 R258, 01 R28). -/
def parkedAt (u : Thread) (now : Nat) : Thread :=
  { u with
    status := .parked
    win := if u.held then u.win else u.win.map Entry.discard
    vstart := if u.held then u.vstart else match u.win.head?.bind Entry.rowStop with
      | some n => BitVec.ofNat 64 n
      | none => u.vstart
    remote := []
    ask := match u.ask with
      | .sweeping _ _ _ => .none
      | a => a
    exiting := none
    due := .none
    cbk := none
    streams := u.streams.map (fun st => { st with ahead := [] })
    lastCore := some u.core
    levelSince := now }

/-- 19 R331: a pattern of fewer than four ones stands for all ones; the applied pattern is what both patterns allow, or FLASHCAP alone where
that is fewer than four. -/
def ones16 (p : BitVec 16) : Nat := ((List.range 16).filter (fun i => p.getLsbD i)).length
def flashNorm (p : BitVec 16) : BitVec 16 := if ones16 p < 4 then 0xFFFF else p
def flashApplied (chr cap : BitVec 16) : BitVec 16 :=
  if ones16 (flashNorm chr &&& flashNorm cap) < 4 then flashNorm cap else flashNorm chr &&& flashNorm cap

/-- Every FLASHCAP holds the spread pattern (19 R332) of the lower of the governor's count and the cluster's own (R335, R342). -/
def capsSet (l : List Cluster) (govn : Nat) : List Cluster := l.map (fun c => { c with flashcap := spread (min govn c.thermal) })

/-- The counters of a die change; nothing else does. -/
def errorsBy (s : State) (die : Nat) (f : Errors → Errors) : State :=
  if h : die < 12 then { s with power := { s.power with errors := s.power.errors.set die (f (s.power.errors[die]'h)) } } else s

/-- Count an uncorrectable error of a memory word or a register at a place (19 R343): UEP saturates, the first one is logged. -/
def errorAt (kind : BitVec 3) (loc : Nat) (e : Errors) : Errors :=
  { e with uep := if e.uep = BitVec.allOnes 32 then e.uep else e.uep + 1
           log := if e.log.getLsbD 63 then e.log else 1#1 ++ kind ++ 0#4 ++ BitVec.ofNat 56 loc }

/-- What firmware makes of one more error of a unit (19 R347, 20 R362): at the sixteenth it appends a FENCE record, where the
table of 1 MiB has room for it (R351). -/
def unitCounted (s : State) (unit : Nat) : State :=
  let n := ((s.power.units.find? (fun u => u.1 == unit)).map (·.2)).getD 0 + 1
  { s with
    power := { s.power with
      units := s.power.units.filter (fun u => u.1 != unit) ++ [(unit, n)]
      fences := if n = 16 then s.power.fences ++ [(unit, 16)] else s.power.fences }
    host := { s.host with
      capTail := if n = 16 ∧ s.capLen + 29832 ≤ 2 ^ 20 then
          s.host.capTail ++ [⟨10, leBytes 4 (unit / 2 ^ 32) ++ leBytes 4 (unit % 2 ^ 32) ++ leBytes 4 16, s.host.build ++ s.host.epoch, false⟩]
        else s.host.capTail
      capFver := if n = 16 ∧ s.capLen + 29832 ≤ 2 ^ 20 then s.host.build ++ s.host.epoch else s.host.capFver } }

/-- The bytes that a read of the host or of firmware returns. -/
def hostReads (s : State) (l : List Byte) : State := { s with host := { s.host with lastRead := l } }

/-- A mailbox command with code `cmd` has completed (20 R356): CODE, RES, DONE; in recovery FOGSTAT stands in the payload (R370). -/
def Completed (s : State) (cmd : BitVec 8) (code : BitVec 6) (res : BitVec 32) (o : Out) : Prop :=
  ∃ t, o = .next t ∧ t = { s with host := { s.host with
      cmd := cmd, busy := false, done := true, code := code, res := res, payload := t.host.payload, len := t.host.len } }
    ∧ (s.host.fogstat = 0 → t.host.payload = s.host.payload ∧ t.host.len = s.host.len)
    ∧ (s.host.fogstat ≠ 0 → t.host.len = 8 ∧ (cellsAbove 0 s.host.payload = true →
        (List.range 8).map (cellGet t.host.payload) = leBytes 8 s.host.fogstat.toNat))

/-- A command may start, or goes on: no other command is being executed (20 R356), and the boot has not stopped at a signature (R367, log 32). -/
def MailboxFree (s : State) (cmd : BitVec 8) : Prop := s.host.stopped = false ∧ (s.host.busy = false ∨ s.host.cmd = cmd)

/-- What a loss of power or a reset leaves of memory: that of the host, behind the host window (20 R351, R366). -/
def HostMemoryLeft (s t : State) : Prop :=
  t.mem = { State.reset.mem with bytes := t.mem.bytes, poison := t.mem.poison }
    ∧ (s.mem.wf = true → t.mem.wf = true ∧ ∀ a, t.mem.byte a = if 2 ^ 43 ≤ a ∧ a < 2 ^ 44 then s.mem.byte a else 0)
    ∧ ∀ w, w ∈ t.mem.poison ↔ w ∈ s.mem.poison ∧ 2 ^ 43 ≤ 8 * w ∧ 8 * w < 2 ^ 44

/-- Whether a stage of the firmware verifies at boot n, with c failures in a row before (20 R367 steps 2 and 3): the image, or its backup, which a third
failure in a row leaves no time for (R372). -/
def StageVerifies (n stage c : Nat) : Prop :=
  Config.flashVerifies n stage false = true ∨ (c < 2 ∧ Config.flashVerifies n stage true = true)

/-- The next boot of `s` gets past its signature checks, or ends before them in recovery (20 R367, R373). -/
def BootVerifies (s : State) : Prop :=
  s.host.fogstat ≠ 0 ∨ (StageVerifies (s.host.boots + 1) 1 s.host.sigfail.toNat ∧ StageVerifies (s.host.boots + 1) 2 0)

/-- What every reset whose boot finds its firmware leaves, on a part whose package number, fuses and always-on registers stay (19 R340, 20 R366,
R367). -/
def AfterReset (s t : State) : Prop :=
  t.me = State.reset.me ∧ t.others = [] ∧ HostMemoryLeft s t ∧ t.time = 0 ∧ t.launches = [] ∧ t.crews = [] ∧ t.nextTid = 0 ∧ t.nextLid = 0
    ∧ t.slack = 0 ∧ t.fab = { Fabric.atReset with fenced := t.fab.fenced } ∧ t.powered = true ∧ t.pkgnum = s.pkgnum ∧ t.agenda = s.agenda
    ∧ t.power.lntstat = (if t.host.fogstat = 0 then 0 else s.power.lntstat)
    ∧ t.power.lntfirst = (if t.host.fogstat = 0 then 0 else s.power.lntfirst)
    ∧ t.power.winStart = 0 ∧ t.power.winEnergy = t.power.energy[8] ∧ t.power.sensors = [] ∧ t.power.plim = 3200
    ∧ t.power.errors = State.reset.power.errors ∧ t.power.fences = [] ∧ t.power.govn = 16
    ∧ t.host.build = s.host.build ∧ t.host.boots = s.host.boots + 1 ∧ (t.host.fogstat = 0 → t.host.capFver = t.host.build ++ t.host.epoch)
    ∧ t.host.active = (s.powered && s.host.active) ∧ t.host.stopped = false ∧ t.host.memOff = false
    ∧ t.host.quiesced = false ∧ t.host.unlocked = false ∧ t.host.staged = [] ∧ t.host.busy = false ∧ t.host.done = false
    ∧ t.host.payload = [] ∧ t.host.token = [] ∧ t.host.sigfail = (if t.host.fogstat = 0 then 0 else s.host.sigfail)
    ∧ (∀ c ∈ t.clusters, c.flashchr = 0xFFFF ∧ c.flashcap = 0xFFFF ∧ c.flashapp = 0xFFFF ∧ c.copies = [] ∧ c.welts = [] ∧ c.pause = false
        ∧ c.lbudget = 4 * t.laneCount c.id ∧ c.lbcap = 4 * t.laneCount c.id)
    ∧ ∀ core, t.halted core = false

/-- A change of one scale-up link. -/
def linkBy (s : State) (n : Nat) (f : Link → Link) : State :=
  if h : n < 32 then { s with fab := { s.fab with links := s.fab.links.set n (f (s.fab.links[n]'h)) } } else s

/-- The packet at a place of the inbox is taken. -/
def taken (s : State) (idx : Nat) : State :=
  { s with fab := { s.fab with inbox := s.fab.inbox.take idx ++ s.fab.inbox.drop (idx + 1) } }

/-- One more counted packet of a sweep of a thread of package src has been performed here (21 R393). -/
def CountsOne (s t : State) (src tid ep : Nat) : Prop :=
  ∀ a b c, sweepCount t.fab.counts a b c = sweepCount s.fab.counts a b c + if a = src ∧ b = tid ∧ c = ep then 1 else 0

/-- A flag is written and reported (21 R388, R389, R381): value, count, misses, status and source in 16 bytes, where its owner may be
written. -/
def FlagLands (s t : State) (src chan addr : Nat) (val : Word) (count : BitVec 32) (miss status : Nat) : Prop :=
  t = { s.sendOrLose src (.flagReport chan count) with mem := t.mem }
    ∧ (s.spot addr = .hbm → s.spot (addr + 15) = .hbm → s.mem.wf = true → src < 4096 → status < 4 →
      Stored s t addr (leBytes 8 val.toNat ++ leBytes 4 count.toNat ++ leBytes 4 (min miss 16383 + status * 16384 + src * 65536)))
    ∧ (s.spot addr ≠ .hbm ∨ s.spot (addr + 15) ≠ .hbm → t.mem = s.mem)

end Sys2Proof.Safety
end

