-- ==== Sys2Proof/Certificates/Slice0/Obligations.lean ====
section
/-!
DEFINITION. The statements for the provers. Each names the rules of spec/ it formalises; `Wrote`, `Answers`, `Trapped` and the other
words of Sys2Proof/Safety.lean say what is written and that nothing else changes.
-/
open Sys2Proof Sys2Proof.Machine Sys2Proof.Safety


/-- 02 R31 to R38 and the encoding tables: words written out field by field, and what a word runs that is no instruction: the
illegal-instruction trap at the word. -/
def Obligations.DecodeSpecWords : Prop :=
  (decode 0x1800000000000005 = .ok (.trap 5)
    ∧ decode 0x1801000000000000 = .ok .eret
    ∧ decode 0x1006304000000008 = .ok (.ldI64 6 1 8)
    ∧ decode 0x18402A4000000000 = .ok (.vsave 5 9)
    ∧ decode 0x16C1014000000400 = .ok (.csrw 0x400 5)
    ∧ decode (sWord 0x02 0x00 3 4 0 0 0 0x3F 0x7FFFF) = .ok (.addImm 3 4 0x7FFFF)
    ∧ decode (lWord 0x02 0x00 3 4 0x3F 0x80000000) = .ok (.addImmLong 3 4 0x80000000)
    ∧ decode (sWord 0xB0 0x22 8 5 0 0 1 0 16) = .ok (.vld ⟨.fp32, false⟩ ⟨1, true⟩ 8 5 16)
    ∧ decode (0x40000000#64 <<< 32 ||| 0) = .error .pairOpcode
    ∧ decode 0 = .error .opcode
    ∧ decode 0xC000000000000000 = .error .frameKind)
  ∧ ((∀ (w : Word), (∃ r, decode w = .error r) → decodeFetched w = .illegalWord w)
    ∧ (∀ (s : State) (w : Word), TrapsHandled s → Trapped s (exec (.illegalWord w) s) 0x01 0 0)
    ∧ (∀ (w : Word), w.extractLsb' 62 2 = 3 → ∃ r, decode w = .error r)
    ∧ (∀ (op : BitVec 8) (fn : BitVec 6) (d a b c : BitVec 5) (k : BitVec 3) (h : BitVec 6) (x : BitVec 19),
        op.toNat = 0 ∨ (0x78 ≤ op.toNat ∧ op.toNat ≤ 0x7F) ∨ 0xF0 ≤ op.toNat → ∃ r, decode (sWord op fn d a b c k h x) = .error r))

/-- Every word that the encoder answers for a well-formed instruction decodes to that instruction. -/
def Obligations.DecodeOfEncode : Prop :=
  ∀ (i : Instr) (w : Word), i.wf = true → encode i = some w → decode w = .ok i

/-- Every word the decoder accepts is the word of its well-formed instruction, but for its H bits. -/
def Obligations.EncodeOfDecode : Prop :=
  ∀ (i : Instr) (w : Word), decode w = .ok i →
    i.wf = true
    ∧ encode i = some (if w.extractLsb' 62 2 = 0 then w &&& 0xFFFFFFFFFE07FFFF
        else if w.extractLsb' 62 2 = 2 then w &&& 0xFFFFFFC0FFFFFFFF else w)

/-- A step with nothing on the agenda, on the issue side, runs the instruction that the word at pc decodes to. Around exec the step
advances TIME by the pace (with the flash frames and intervals that begin on the way, 19 R331, R342), hands the next step to the engines, leaves the line
fetched in the instruction cache and its translation used most recently (05 R113, 18 R317), notes which loads the registers depend on (11 R249), records the
word, and ends a DBGCTL.STEP of the core once the word has issued whole (04 R111); an ESLOT that says slot 0 is done counts for a P-form word alone (log 36:
the model's choice). -/
def Obligations.StepRunsDecoded : Prop :=
  ∀ (s : State), s.agenda = [] → s.powered = true → s.turn = .issue → s.mayIssue = true →
    (∀ (w : Word) (i : Instr), s.fetchAt s.me.pc = .ok w → (decode w = .ok i ∨ ((∃ r, decode w = .error r) ∧ i = .illegalWord w)) →
      let s1 : State := { s.tick (s.time + s.pace) with
        turn := .engine
        mem := ((s.fillCode s.me s.me.pc).hit none s.me.pc).mem
        me := { s.me.depend i (s.time + s.pace) with iw := w, only1 := s.me.only1 && w.extractLsb' 62 2 == 1 } }
      (s.me.issuable i = false → step s = .next { s.tick (s.time + s.pace) with turn := .engine })
      ∧ (s.me.issuable i = true → s.stepping = false → step s = exec i s1)
      ∧ (s.me.issuable i = true → s.stepping = true →
        step s = match exec i s1 with
          | .next t => .next (if jumps i = true ∨ t.me.pc ≠ s.me.pc ∨ t.me.tip ≠ s.me.tip ∨ t.me.status ≠ s.me.status then stepEnded t s.me.core else t)
          | o => o))
    ∧ (∀ (b : Bad), s.fetchAt s.me.pc = .error b → TrapsHandled s →
      ∃ t, step s = .next t ∧ t.turn = .engine
        ∧ TrapEntered { s.tick (s.time + s.pace) with turn := .engine } t b.code b.detail s.me.pc)

/-- The other steps: an event of the agenda runs and leaves it; without power only a cold reset is heard, and with an empty agenda
there is no step (19 R340); on the other turns the engines move and the focus passes on (logs 1 and 7: the model's order), never to a
thread that leaves the slot to another context of its core: one that could issue and has been passed over 63 times, or is of a
stricter level (01 R27; a turn stands for a cycle of the core, log 1). -/
def Obligations.StepOtherwise : Prop :=
  (∀ (s : State) (i : Instr) (r : List Instr), s.agenda = i :: r →
    (s.powered = true → step s = exec i { s with agenda := r })
    ∧ (i = .coldReset → step s = exec i { s with agenda := r })
    ∧ (s.powered = false → i ≠ .coldReset → step s = .next { s with agenda := r }))
  ∧ ∀ (s : State), s.agenda = [] →
    (s.powered = false → step s = .fault .unpowered)
    ∧ (s.powered = true → s.turn = .issue → s.mayIssue = false → step s = .next { s.tick (s.time + s.pace) with turn := .engine })
    ∧ (s.powered = true → s.turn = .engine → ∃ t, step s = .next t ∧ t.turn = .rotate)
    ∧ (s.powered = true → s.turn = .rotate → ∃ t, step s = .next t ∧ t.turn = .issue ∧ t.mem = s.mem ∧ t.time = s.time
        ∧ (t.me = s.me ∨ ∃ u ∈ s.threads, s.leavesSlot u = false ∧ t.me = { u with passed := 0 }))
    ∧ ∀ (t : Thread), s.leavesSlot t = true ↔ s.couldIssue t = true ∧ ∃ o ∈ s.threads, o.core = t.core ∧ s.couldIssue o = true
        ∧ t.passed < 63 ∧ (63 ≤ o.passed ∨ o.level < t.level)

/-- 01 R16: the reset values that the CSR table gives, for a thread as it is created and the package after reset; 14 R265, 20 R367: memory
after reset is in canonical form and reads as zero everywhere, with no line empty and no word poisoned. The model's choice (log 2): the bytes behind the host
window, which no reset clears, read as zero too, and the registers that count lanes show the 512 of a part with every lane enabled. -/
def Obligations.ResetState : Prop :=
  (∀ (tid : Nat), ∀ p ∈ [(0x000, 0), (0x001, 0), (0x100, 0), (0x101, 0x8000000000000000), (0x102, 0), (0x104, 0), (0x200, 0), (0x201, 0),
        (0x202, 0), (0x203, 0), (0x204, 0), (0x205, 0), (0x206, 0), (0x207, 0), (0x300, 0), (0x301, 0), (0x302, 0), (0x303, 0), (0x304, 0),
        (0x305, 0), (0x306, 0x3567E0), (0x307, 0x8583B0), (0x308, 0), (0x309, 0), (0x400, 0xFFFF), (0x401, 512), (0x402, 0xFFFF),
        (0x403, 0xFFFF), (0x404, 512), (0x405, 512), (0x406, 0), (0x500, 0x5C091536), (0x510, 0), (0x52F, 0), (0x530, 0), (0x539, 0),
        (0x53B, 0), (0x53C, (0 : Word))],
      State.csrValue { State.reset with me := Thread.fresh tid } p.1 = p.2)
  ∧ (State.reset.mem.wf = true ∧ ∀ a, State.reset.mem.byte a = 0 ∧ State.reset.mem.isEmptyAt a 8 = false ∧ State.reset.mem.poisonAt a 8 = none)

/-- Memory keeps its canonical form (logs 2 and 8) over every step of every state. -/
def Obligations.StepKeepsMemory : Prop :=
  ∀ (s t : State), s.mem.wf = true → step s = .next t → t.mem.wf = true
/-- 03 R57, R58: the register forms of OP 0x01, with shift amounts xB[5:0] and xB[4:0]. -/
def Obligations.IntegerRegisterForms : Prop :=
  ∀ (s : State) (d xa xb : XReg),
    let a := s.getX xa
    let b := s.getX xb
    let n := (b.extractLsb' 0 6).toNat
    let t := (b.extractLsb' 0 5).toNat
    let lo := a.extractLsb' 0 32
    Wrote s (exec (.add d xa xb) s) d (a + b)
    ∧ Wrote s (exec (.sub d xa xb) s) d (a - b)
    ∧ Wrote s (exec (.and d xa xb) s) d (a &&& b)
    ∧ Wrote s (exec (.or d xa xb) s) d (a ||| b)
    ∧ Wrote s (exec (.xor d xa xb) s) d (a ^^^ b)
    ∧ Wrote s (exec (.andn d xa xb) s) d (a &&& ~~~b)
    ∧ Wrote s (exec (.orn d xa xb) s) d (a ||| ~~~b)
    ∧ Wrote s (exec (.xnor d xa xb) s) d (~~~(a ^^^ b))
    ∧ Wrote s (exec (.sll d xa xb) s) d (a <<< n)
    ∧ Wrote s (exec (.srl d xa xb) s) d (a >>> n)
    ∧ Wrote s (exec (.sra d xa xb) s) d (a.sshiftRight n)
    ∧ Wrote s (exec (.rol d xa xb) s) d (a.rotateLeft n)
    ∧ Wrote s (exec (.ror d xa xb) s) d (a.rotateRight n)
    ∧ Wrote s (exec (.minI64 d xa xb) s) d (if a.sle b then a else b)
    ∧ Wrote s (exec (.maxI64 d xa xb) s) d (if a.sle b then b else a)
    ∧ Wrote s (exec (.minN64 d xa xb) s) d (if a ≤ b then a else b)
    ∧ Wrote s (exec (.maxN64 d xa xb) s) d (if a ≤ b then b else a)
    ∧ Wrote s (exec (.sltI64 d xa xb) s) d (if a.slt b then 1 else 0)
    ∧ Wrote s (exec (.sltN64 d xa xb) s) d (if a < b then 1 else 0)
    ∧ Wrote s (exec (.seq d xa xb) s) d (if a = b then 1 else 0)
    ∧ Wrote s (exec (.add32 d xa xb) s) d (((a + b).extractLsb' 0 32).signExtend 64)
    ∧ Wrote s (exec (.sub32 d xa xb) s) d (((a - b).extractLsb' 0 32).signExtend 64)
    ∧ Wrote s (exec (.sll32 d xa xb) s) d ((lo <<< t).signExtend 64)
    ∧ Wrote s (exec (.srl32 d xa xb) s) d ((lo >>> t).signExtend 64)
    ∧ Wrote s (exec (.sra32 d xa xb) s) d ((lo.sshiftRight t).signExtend 64)

/-- 03 R57 to R59, R63: the immediate forms, with b := sext19(X), sext32(I32), or a shift amount in the word; the constant forms; lih keeps
the low half of its destination. -/
def Obligations.IntegerImmediateForms : Prop :=
  (∀ (s : State) (d xa : XReg) (i : Imm19) (j : Imm32) (n : BitVec 6) (t : BitVec 5),
      let a := s.getX xa
      let b := i.signExtend 64
      let c := j.signExtend 64
      let lo := a.extractLsb' 0 32
      Wrote s (exec (.addImm d xa i) s) d (a + b)
      ∧ Wrote s (exec (.addImmLong d xa j) s) d (a + c)
      ∧ Wrote s (exec (.andImm d xa i) s) d (a &&& b)
      ∧ Wrote s (exec (.andImmLong d xa j) s) d (a &&& c)
      ∧ Wrote s (exec (.orImm d xa i) s) d (a ||| b)
      ∧ Wrote s (exec (.orImmLong d xa j) s) d (a ||| c)
      ∧ Wrote s (exec (.xorImm d xa i) s) d (a ^^^ b)
      ∧ Wrote s (exec (.xorImmLong d xa j) s) d (a ^^^ c)
      ∧ Wrote s (exec (.sllImm d xa n) s) d (a <<< n.toNat)
      ∧ Wrote s (exec (.srlImm d xa n) s) d (a >>> n.toNat)
      ∧ Wrote s (exec (.sraImm d xa n) s) d (a.sshiftRight n.toNat)
      ∧ Wrote s (exec (.rolImm d xa n) s) d (a.rotateLeft n.toNat)
      ∧ Wrote s (exec (.rorImm d xa n) s) d (a.rotateRight n.toNat)
      ∧ Wrote s (exec (.minI64Imm d xa i) s) d (if a.sle b then a else b)
      ∧ Wrote s (exec (.maxI64Imm d xa i) s) d (if a.sle b then b else a)
      ∧ Wrote s (exec (.minN64Imm d xa i) s) d (if a ≤ b then a else b)
      ∧ Wrote s (exec (.maxN64Imm d xa i) s) d (if a ≤ b then b else a)
      ∧ Wrote s (exec (.sltI64Imm d xa i) s) d (if a.slt b then 1 else 0)
      ∧ Wrote s (exec (.sltN64Imm d xa i) s) d (if a < b then 1 else 0)
      ∧ Wrote s (exec (.seqImm d xa i) s) d (if a = b then 1 else 0)
      ∧ Wrote s (exec (.add32Imm d xa i) s) d (((a + b).extractLsb' 0 32).signExtend 64)
      ∧ Wrote s (exec (.sll32Imm d xa t) s) d ((lo <<< t.toNat).signExtend 64)
      ∧ Wrote s (exec (.srl32Imm d xa t) s) d ((lo >>> t.toNat).signExtend 64)
      ∧ Wrote s (exec (.sra32Imm d xa t) s) d ((lo.sshiftRight t.toNat).signExtend 64))
  ∧ (∀ (s : State) (d : XReg) (i : Imm19) (j : Imm32),
      Wrote s (exec (.li d i) s) d (i.signExtend 64)
      ∧ Wrote s (exec (.liLong d j) s) d (j.signExtend 64)
      ∧ Wrote s (exec (.lih d j) s) d ((j.setWidth 64 <<< 32) ||| (s.getX d &&& 0xFFFFFFFF))
      ∧ Wrote s (exec (.lpc d i) s) d (s.me.pc + i.signExtend 64)
      ∧ Wrote s (exec (.lpcLong d j) s) d (s.me.pc + j.signExtend 64))

/-- 03 R60, R61: multiplication and division (the product halves are those of the 128-bit products; a zero divisor gives all ones, or the
dividend as remainder; -2^63 / -1 wraps, as BitVec.sdiv and BitVec.srem do), and the one-operand forms (clz and ctz count the zero bits
above the highest and below the lowest one bit). -/
def Obligations.MultiplyDivideAndCounts : Prop :=
  (∀ (s : State) (d xa xb : XReg),
      let a := s.getX xa
      let b := s.getX xb
      Wrote s (exec (.mul d xa xb) s) d (a * b)
      ∧ Wrote s (exec (.mulhI64 d xa xb) s) d ((a.signExtend 128 * b.signExtend 128).extractLsb' 64 64)
      ∧ Wrote s (exec (.mulhN64 d xa xb) s) d ((a.setWidth 128 * b.setWidth 128).extractLsb' 64 64)
      ∧ Wrote s (exec (.mul32 d xa xb) s) d (((a * b).extractLsb' 0 32).signExtend 64)
      ∧ Wrote s (exec (.divI64 d xa xb) s) d (if b = 0 then 0xFFFFFFFFFFFFFFFF else a.sdiv b)
      ∧ Wrote s (exec (.divN64 d xa xb) s) d (if b = 0 then 0xFFFFFFFFFFFFFFFF else a / b)
      ∧ Wrote s (exec (.remI64 d xa xb) s) d (if b = 0 then a else a.srem b)
      ∧ Wrote s (exec (.remN64 d xa xb) s) d (if b = 0 then a else a % b))
  ∧ (∀ (s : State) (d xa : XReg),
      let a := s.getX xa
      (∃ n : Nat, Wrote s (exec (.clz d xa) s) d (BitVec.ofNat 64 n) ∧ n ≤ 64 ∧ (∀ i, 64 - n ≤ i → a.getLsbD i = false)
        ∧ (n < 64 → a.getLsbD (63 - n) = true))
      ∧ (∃ n : Nat, Wrote s (exec (.ctz d xa) s) d (BitVec.ofNat 64 n) ∧ n ≤ 64 ∧ (∀ i, i < n → a.getLsbD i = false)
        ∧ (n < 64 → a.getLsbD n = true))
      ∧ Wrote s (exec (.popc d xa) s) d (BitVec.ofNat 64 ((List.range 64).filter (fun i => a.getLsbD i)).length)
      ∧ (∃ r : Word, Wrote s (exec (.rev8 d xa) s) d r ∧ ∀ k, k < 8 → r.extractLsb' (8 * k) 8 = a.extractLsb' (56 - 8 * k) 8)
      ∧ (∃ r : Word, Wrote s (exec (.brev d xa) s) d r ∧ ∀ k, k < 64 → r.getLsbD k = a.getLsbD (63 - k))
      ∧ Wrote s (exec (.sext8 d xa) s) d ((a.extractLsb' 0 8).signExtend 64)
      ∧ Wrote s (exec (.sext16 d xa) s) d ((a.extractLsb' 0 16).signExtend 64)
      ∧ Wrote s (exec (.sext32 d xa) s) d ((a.extractLsb' 0 32).signExtend 64)
      ∧ Wrote s (exec (.zext8 d xa) s) d ((a.extractLsb' 0 8).setWidth 64)
      ∧ Wrote s (exec (.zext16 d xa) s) d ((a.extractLsb' 0 16).setWidth 64)
      ∧ Wrote s (exec (.zext32 d xa) s) d ((a.extractLsb' 0 32).setWidth 64))

/-- 03 R62: sel and madd, the words that name them, and the words of OP 0x05 that name neither (a non-zero K or X, FN 0x02 to 0x3F). -/
def Obligations.SelectAndMultiplyAdd : Prop :=
  (∀ (s : State) (d xa xb xc : XReg),
    Wrote s (exec (.sel d xa xb xc) s) d (if s.getX xc ≠ 0 then s.getX xa else s.getX xb)
    ∧ Wrote s (exec (.madd d xa xb xc) s) d (s.getX xa * s.getX xb + s.getX xc))
  ∧ ∀ (fn : BitVec 6) (d a b c : BitVec 5) (k : BitVec 3) (h : BitVec 6) (x : BitVec 19),
    decodeFetched (sWord 0x05 fn d a b c k h x)
      = if k = 0 ∧ x = 0 ∧ fn = 0 then .sel d a b c
        else if k = 0 ∧ x = 0 ∧ fn = 1 then .madd d a b c
        else .illegalWord (sWord 0x05 fn d a b c k h x)

/-- 03 R64 to R67, R69, 01 R13: the forms that round: the exact result, or the special value IEEE 754-2019 prescribes for the operands, rounded once under
RMS or FCSR.RM, with its flags; a NaN result is the canonical NaN; FZ flushes operands and results; an FP32 operand is the low half of its register, and an
FP32 result is zero above bit 31. What 0 x infinity plus a quiet NaN raises is left open by the standard (log 9). The sign forms copy bits and raise no
flag. -/
def Obligations.FloatArithmetic : Prop :=
  (∀ (s : State) (rms : Rms) (d xa xb xc : XReg),
      let fz := s.me.fz
      let mode := s.me.mode rms
      let quiet := Config.fmaQuietInvalid
      let v64 (r : XReg) : FpValue := (fpNum 11 52 (s.getX r).toNat).flushed 11 52 fz
      let v32 (r : XReg) : FpValue := (fpNum 8 23 ((s.getX r).toNat % 2 ^ 32)).flushed 8 23 fz
      (∀ p ∈ [(Instr.faddF64 rms d xa xb, idealAdd mode (v64 xa) (v64 xb)), (.fsubF64 rms d xa xb, idealAdd mode (v64 xa) (v64 xb).flip),
          (.fmulF64 rms d xa xb, idealMul (v64 xa) (v64 xb)), (.fdivF64 rms d xa xb, idealDiv (v64 xa) (v64 xb)),
          (.fsqrtF64 rms d xa, idealRoot (v64 xa)), (.fmaF64 rms d xa xb xc, idealFma mode quiet (v64 xa) (v64 xb) (v64 xc)),
          (.fcvtF64F32 rms d xa, idealOf (v32 xa)), (.fcvtF64I64 rms d xa, idealInt (s.getX xa).toInt),
          (.fcvtF64N64 rms d xa, idealInt (s.getX xa).toNat)],
        FpWrote s (exec p.1 s) d (fun w fl => Gives 11 52 mode fz p.2 w.toNat fl))
      ∧ (∀ p ∈ [(Instr.faddF32 rms d xa xb, idealAdd mode (v32 xa) (v32 xb)), (.fsubF32 rms d xa xb, idealAdd mode (v32 xa) (v32 xb).flip),
          (.fmulF32 rms d xa xb, idealMul (v32 xa) (v32 xb)), (.fdivF32 rms d xa xb, idealDiv (v32 xa) (v32 xb)),
          (.fsqrtF32 rms d xa, idealRoot (v32 xa)), (.fmaF32 rms d xa xb xc, idealFma mode quiet (v32 xa) (v32 xb) (v32 xc)),
          (.fcvtF32F64 rms d xa, idealOf (v64 xa)), (.fcvtF32I64 rms d xa, idealInt (s.getX xa).toInt),
          (.fcvtF32N64 rms d xa, idealInt (s.getX xa).toNat)],
        FpWrote s (exec p.1 s) d (fun w fl => w.toNat < 2 ^ 32 ∧ Gives 8 23 mode fz p.2 w.toNat fl))
      ∧ (∀ p ∈ [(Instr.fcvtI64F64 rms d xa, false, v64 xa), (.fcvtN64F64 rms d xa, true, v64 xa), (.fcvtI64F32 rms d xa, false, v32 xa),
          (.fcvtN64F32 rms d xa, true, v32 xa)],
        FpWrote s (exec p.1 s) d (fun w fl => IntegerOf 64 p.2.1 mode p.2.2 w.toNat fl)))
  ∧ (∀ (s : State) (d xa xb : XReg),
      let a := s.getX xa
      let b := s.getX xb
      let a32 := a.extractLsb' 0 32
      let b32 := b.extractLsb' 0 32
      let m64 : Word := 0x7FFFFFFFFFFFFFFF
      let m32 : BitVec 32 := 0x7FFFFFFF
      Wrote s (exec (.fsgnF64 d xa xb) s) d ((a &&& m64) ||| (b &&& ~~~m64))
      ∧ Wrote s (exec (.fsgnnF64 d xa xb) s) d ((a &&& m64) ||| (~~~b &&& ~~~m64))
      ∧ Wrote s (exec (.fsgnxF64 d xa xb) s) d (a ^^^ (b &&& ~~~m64))
      ∧ Wrote s (exec (.fsgnF32 d xa xb) s) d (((a32 &&& m32) ||| (b32 &&& ~~~m32)).setWidth 64)
      ∧ Wrote s (exec (.fsgnnF32 d xa xb) s) d (((a32 &&& m32) ||| (~~~b32 &&& ~~~m32)).setWidth 64)
      ∧ Wrote s (exec (.fsgnxF32 d xa xb) s) d ((a32 ^^^ (b32 &&& ~~~m32)).setWidth 64))

/-- 03 R68, in both formats. -/
def Obligations.FloatCompareAndClass : Prop :=
  ∀ (s : State) (d xa xb : XReg),
    ComparesAs s d 11 52 (s.getX xa).toNat (s.getX xb).toNat
      (.fminF64 d xa xb) (.fmaxF64 d xa xb) (.feqF64 d xa xb) (.fltF64 d xa xb) (.fleF64 d xa xb) (.fclassF64 d xa)
    ∧ ComparesAs s d 8 23 ((s.getX xa).toNat % 2 ^ 32) ((s.getX xb).toNat % 2 ^ 32)
      (.fminF32 d xa xb) (.fmaxF32 d xa xb) (.feqF32 d xa xb) (.fltF32 d xa xb) (.fleF32 d xa xb) (.fclassF32 d xa)

/-- 03 R70, R71: what each load writes. -/
def Obligations.LoadsComplete : Prop :=
  ∀ (s s1 : State) (d xa : XReg) (i : Imm19) (j : Imm32) (l : List Byte),
    let ea := s.getX xa + i.signExtend 64
    let eaL := s.getX xa + j.signExtend 64
    let pc := s.me.pc + 8
    let v := leNat l
    (LoadGives s ea 1 l s1 → Answers s s1 (exec (.ldI8 d xa i) s) pc d ((BitVec.ofNat 8 v).signExtend 64))
    ∧ (LoadGives s ea 1 l s1 → Answers s s1 (exec (.ldN8 d xa i) s) pc d (BitVec.ofNat 64 v))
    ∧ (LoadGives s ea 2 l s1 → Answers s s1 (exec (.ldI16 d xa i) s) pc d ((BitVec.ofNat 16 v).signExtend 64))
    ∧ (LoadGives s ea 2 l s1 → Answers s s1 (exec (.ldN16 d xa i) s) pc d (BitVec.ofNat 64 v))
    ∧ (LoadGives s ea 4 l s1 → Answers s s1 (exec (.ldI32 d xa i) s) pc d ((BitVec.ofNat 32 v).signExtend 64))
    ∧ (LoadGives s ea 4 l s1 → Answers s s1 (exec (.ldN32 d xa i) s) pc d (BitVec.ofNat 64 v))
    ∧ (LoadGives s ea 8 l s1 → Answers s s1 (exec (.ldI64 d xa i) s) pc d (BitVec.ofNat 64 v))
    ∧ (LoadGives s eaL 1 l s1 → Answers s s1 (exec (.ldI8Long d xa j) s) pc d ((BitVec.ofNat 8 v).signExtend 64))
    ∧ (LoadGives s eaL 1 l s1 → Answers s s1 (exec (.ldN8Long d xa j) s) pc d (BitVec.ofNat 64 v))
    ∧ (LoadGives s eaL 2 l s1 → Answers s s1 (exec (.ldI16Long d xa j) s) pc d ((BitVec.ofNat 16 v).signExtend 64))
    ∧ (LoadGives s eaL 2 l s1 → Answers s s1 (exec (.ldN16Long d xa j) s) pc d (BitVec.ofNat 64 v))
    ∧ (LoadGives s eaL 4 l s1 → Answers s s1 (exec (.ldI32Long d xa j) s) pc d ((BitVec.ofNat 32 v).signExtend 64))
    ∧ (LoadGives s eaL 4 l s1 → Answers s s1 (exec (.ldN32Long d xa j) s) pc d (BitVec.ofNat 64 v))
    ∧ (LoadGives s eaL 8 l s1 → Answers s s1 (exec (.ldI64Long d xa j) s) pc d (BitVec.ofNat 64 v))

/-- 03 R71, R73, 19 R344: each store that stays in the package writes the low bytes of xD at the home of its address and no other byte;
it does not wait; the poison of a word goes only where all 8 bytes of it are written; no register changes. -/
def Obligations.StoresComplete : Prop :=
  ∀ (s : State) (d xa : XReg) (i : Imm19) (j : Imm32), ∀ p ∈ scalarStores s d xa i j, ∀ (x : Xlat) (h : Nat),
    s.checkAccess .store p.2.1 p.2.2 = .ok x → x.place = .near h → s.mem.wf = true →
    ∃ t, exec p.1 s = .next t
      ∧ t = { s with me := { s.me with pc := s.me.pc + 8 }, mem := t.mem }
      ∧ Stored s t h (leBytes p.2.2 (s.getX d).toNat)
      ∧ t.mem.empties = s.mem.empties
      ∧ (p.2.2 < 8 → t.mem.poison = s.mem.poison)
      ∧ (p.2.2 = 8 → h % 8 = 0 → t.mem.poison = s.mem.poison.filter (fun w => w != h / 8))

/-- 03 R70, R72, R73, 18 R311: what a scalar load, store or atomic does where it does not complete. The traps are in the order of R72:
misaligned address, page and access faults, poisoned data; a read of an empty line waits, with no effect. Bits [63:52] of an address, and
the lane-slice window, are not for scalar accesses; the core window is the core's own scratchpad. -/
def Obligations.AccessesTrapOrWait : Prop :=
  (∀ (s : State) (d xa xb xc : XReg) (i : Imm19) (j : Imm32) (w32 : Bool) (acc : Acc),
      ∀ p ∈ scalarAccesses s w32 acc d xa xb xc i j,
      let w : BitVec 12 := if acc = .load then 0 else 1
      TrapsHandled s →
        (p.2.1.toNat % p.2.2 ≠ 0 → Trapped s (exec p.1 s) 0x06 (w + if s.peekRemote s.env p.2.1 then 2 else 0) p.2.1)
        ∧ (∀ b, p.2.1.toNat % p.2.2 = 0 → s.translate s.env acc none p.2.1 = .error b → Trapped s (exec p.1 s) b.code b.detail p.2.1)
        ∧ (∀ x pkg a, p.2.1.toNat % p.2.2 = 0 → s.translate s.env acc none p.2.1 = .ok x → x.place = .far pkg a →
            (s.reaches pkg = false ∨ acc = .atomic) → Trapped s (exec p.1 s) 0x08 (w + 2) p.2.1)
        ∧ (∀ x h, s.checkAccess acc p.2.1 p.2.2 = .ok x → x.place = .near h → acc ≠ .store → s.mem.isEmptyAt h p.2.2 = true →
            exec p.1 s = .next s)
        ∧ (∀ x h n, s.checkAccess acc p.2.1 p.2.2 = .ok x → x.place = .near h → acc ≠ .store → s.mem.isEmptyAt h p.2.2 = false →
            s.mem.poisonAt h p.2.2 = some n → Trapped s (exec p.1 s) 0x09 0 (p.2.1 &&& ~~~7)))
  ∧ (∀ (s : State) (acc : Acc) (va : Word), acc ≠ .fetch →
      let w : BitVec 12 := if acc = .load then 0 else 1
      (2 ^ 52 ≤ va.toNat → s.translate s.env acc none va = .error ⟨0x07, w⟩)
      ∧ (0x000FFF0000000000 ≤ va.toNat → va.toNat < 0x000FFF1000000000 → s.translate s.env acc none va = .error ⟨0x08, w⟩)
      ∧ (0x000FFF1000000000 ≤ va.toNat → va.toNat < 0x000FFF1000100000 →
          ∃ x, s.translate s.env acc none va = .ok x ∧ x.place = .near (coreSram s.me.core + (va.toNat - 0x000FFF1000000000))))

/-- 03 R75, R76, 11 R259, 18 R317, 20 R354: ld.acq reads as its scope says and then the core's data L1 holds no line; st.rel stores as a store does. -/
def Obligations.AcquireAndRelease : Prop :=
  ∀ (s : State) (sc : Scope) (d xa : XReg) (i : Imm19) (x : Xlat) (h : Nat),
    let ea := s.getX xa + i.signExtend 64
    let pc := s.me.pc + 8
    let reader := if x.cached ∧ (sc = .lg ∨ sc = .co) then some (s.me.core, s.me.need) else none
    let s1 : State := ({ s with mem := { s.mem.holdHost false h with l1 := s.mem.l1.filter (fun c => c.core != s.me.core) } } : State).hit none ea
    x.place = .near h → x.kind ≠ some 2 →
      (s.checkAccess .load ea 8 = .ok x → s.mem.isEmptyAt h 8 = false → s.mem.poisonAt h 8 = none →
        Answers s s1 (exec (.ldAcq sc d xa i) s) pc d (BitVec.ofNat 64 (leNat (s.mem.seenBytes reader h 8))))
      ∧ (s.checkAccess .load ea 4 = .ok x → s.mem.isEmptyAt h 4 = false → s.mem.poisonAt h 4 = none →
        Answers s s1 (exec (.ldAcqN32 sc d xa i) s) pc d (BitVec.ofNat 64 (leNat (s.mem.seenBytes reader h 4))))
      ∧ (∀ p ∈ [(Instr.stRel sc d xa i, 8), (Instr.stRel32 sc d xa i, 4)],
        s.checkAccess .store ea p.2 = .ok x → s.mem.wf = true →
        ∃ t, exec p.1 s = .next t ∧ t = { s with me := { s.me with pc := pc }, mem := t.mem }
          ∧ Stored s t h (leBytes p.2 (s.getX d).toNat))

/-- 03 R77, R78, R79: the atomics at a home of the package. `old` is the number there and b, c the operands at the form's width; xD receives
the old value, sign-extended but in natural forms, and no L1 holds the line afterwards. -/
def Obligations.AtomicsComplete : Prop :=
  ∀ (s : State) (w32 : Bool) (d xa xb xc : XReg) (i : Imm19) (x : Xlat) (h : Nat),
    let ea := s.getX xa + i.signExtend 64
    let n := if w32 then 4 else 8
    let w := 8 * n
    let old := s.mem.number h n
    let o := BitVec.ofNat w old
    let b := (s.getX xb).setWidth w
    let c := (s.getX xc).setWidth w
    s.checkAccess .atomic ea n = .ok x → x.place = .near h → s.mem.isEmptyAt h n = false → s.mem.poisonAt h n = none →
    s.mem.wf = true →
    ∀ p ∈ [(Instr.amoSwap w32 d xa xb i, some b, true), (.amoAdd w32 d xa xb i, some (o + b), true),
        (.amoAnd w32 d xa xb i, some (o &&& b), true), (.amoOr w32 d xa xb i, some (o ||| b), true),
        (.amoXor w32 d xa xb i, some (o ^^^ b), true), (.amoMinI w32 d xa xb i, some (if o.sle b then o else b), true),
        (.amoMaxI w32 d xa xb i, some (if o.sle b then b else o), true), (.amoMinN w32 d xa xb i, some (if o ≤ b then o else b), false),
        (.amoMaxN w32 d xa xb i, some (if o ≤ b then b else o), false),
        (if w32 then .cas32 d xa xb xc i else .cas64 d xa xb xc i, if o = b then some c else none, true)],
      ∃ t, exec p.1 s = .next t
        ∧ t = { s with me := { s.me with pc := s.me.pc + 8, x := t.me.x }, mem := t.mem }
        ∧ (∀ r, t.getX r = if r = d ∧ r ≠ 0 then (if p.2.2 then o.signExtend 64 else o.setWidth 64) else s.getX r)
        ∧ (match p.2.1 with
          | some v => Stored s t h (leBytes n v.toNat)
          | none => MemoryKept s t)
        ∧ t.mem.l1.all (fun l => l.line != h / 128) = true

/-- 03 R80, 05 R113, R114, 06 R140: a prefetch always continues at the next word. Where its address passes translation and permission in memory that the
cache may hold, its line enters that cache of the core (256 sets of 4 ways, 64 sets of 8 ways), or is used there where prefd finds it; prefi of a line
that is there has no effect. Everywhere else nothing changes; nothing but that one cache changes anywhere, and which translation the core's micro-TLB used
last (18 R317). -/
def Obligations.PrefetchesComplete : Prop :=
  ∀ (s : State) (xa : XReg) (i : Imm19),
    let ea := s.getX xa + i.signExtend 64
    let next := { s.me with pc := s.me.pc + 8 }
    let u := s.hit none ea
    let line (h : Nat) : CacheLine := ⟨s.me.core, h / 128, (List.range 128).map (fun k => s.mem.byte (128 * (h / 128) + k)), s.time⟩
    let held (l : List CacheLine) (h : Nat) : Prop := ∃ c ∈ l, c.core = s.me.core ∧ c.line = h / 128
    let mate (sets h : Nat) (c : CacheLine) : Bool := c.core == s.me.core && c.line % sets == h / 128 % sets
    (∀ h k, s.translate s.env .load none ea = .ok ⟨.near h, k, true⟩ →
      ∃ l, exec (.prefd xa i) s = .next { u with me := next, mem := { u.mem with l1 := l } }
        ∧ (held s.mem.l1 h → CacheUses s.mem.l1 l s.me.core (h / 128))
        ∧ (¬ held s.mem.l1 h → CacheTakes s.mem.l1 l 4 (mate 256 h) (line h)))
    ∧ ((∀ h k, s.translate s.env .load none ea ≠ .ok ⟨.near h, k, true⟩) → Skipped u (exec (.prefd xa i) s))
    ∧ (∀ h k c, s.translate s.env .fetch none ea = .ok ⟨.near h, k, c⟩ → h < 2 ^ 40 →
      (held s.mem.icache h → Skipped u (exec (.prefi xa i) s))
      ∧ (¬ held s.mem.icache h → ∃ l, exec (.prefi xa i) s = .next { u with me := next, mem := { u.mem with icache := l } }
        ∧ CacheTakes s.mem.icache l 8 (mate 64 h) (line h)))
    ∧ ((∀ h k c, s.translate s.env .fetch none ea = .ok ⟨.near h, k, c⟩ → 2 ^ 40 ≤ h) → Skipped u (exec (.prefi xa i) s))


/-- 03 R81: branches, the words that name them, and the wait for a pending operand. -/
def Obligations.Branches : Prop :=
  (∀ (s : State) (xa xb : XReg) (disp : Imm19),
    let a := s.getX xa
    let b := s.getX xb
    ∀ p ∈ [(Instr.beq xa xb disp, decide (a = b)), (.bne xa xb disp, decide (a ≠ b)), (.bltI64 xa xb disp, a.slt b),
        (.bgeI64 xa xb disp, b.sle a), (.bltN64 xa xb disp, a.ult b), (.bgeN64 xa xb disp, b.ule a)],
      exec p.1 s = .next { s with me := { s.me with pc := if p.2 then s.me.pc + 8 * disp.signExtend 64 else s.me.pc + 8 } }
      ∧ ((s.me.pending xa || s.me.pending xb) = true → s.me.issuable p.1 = false))
  ∧ ∀ (fn : BitVec 6) (d a b c : BitVec 5) (k : BitVec 3) (h : BitVec 6) (x : BitVec 19),
    let w := sWord 0x50 fn d a b c k h x
    decodeFetched w = if d = 0 ∧ c = 0 ∧ k = 0 then
        (match fn.toNat with
        | 0 => .beq a b x
        | 1 => .bne a b x
        | 2 => .bltI64 a b x
        | 3 => .bgeI64 a b x
        | 4 => .bltN64 a b x
        | 5 => .bgeN64 a b x
        | _ => .illegalWord w)
      else .illegalWord w

/-- 03 R82: jumps and the words that name them. A misaligned target is the trap of 02 R30. -/
def Obligations.Jumps : Prop :=
  (∀ (s : State) (d xa : XReg) (i : Imm19) (j : Imm32),
    let t := s.getX xa + i.signExtend 64
    Answers s s (exec (.jal d i) s) (s.me.pc + 8 * i.signExtend 64) d (s.me.pc + 8)
    ∧ Answers s s (exec (.jalLong d j) s) (s.me.pc + 8 * j.signExtend 64) d (s.me.pc + 8)
    ∧ (t.toNat % 8 = 0 → Answers s s (exec (.jalr d xa i) s) t d (s.me.pc + 8))
    ∧ (t.toNat % 8 ≠ 0 → TrapsHandled s → Trapped s (exec (.jalr d xa i) s) 0x03 0 t))
  ∧ ∀ (fn : BitVec 6) (d a b c : BitVec 5) (k : BitVec 3) (h : BitVec 6) (x : BitVec 19) (i : BitVec 32),
    let w := sWord 0x51 fn d a b c k h x
    let v := lWord 0x51 fn d a h i
    let u := sWord 0x52 fn d a b c k h x
    decodeFetched w = (if fn = 0 ∧ a = 0 ∧ b = 0 ∧ c = 0 ∧ k = 0 then .jal d x else .illegalWord w)
    ∧ decodeFetched v = (if fn = 0 ∧ a = 0 then .jalLong d i else .illegalWord v)
    ∧ decodeFetched u = (if fn = 0 ∧ b = 0 ∧ c = 0 ∧ k = 0 then .jalr d a x else .illegalWord u)

/-- 03 R85, R88, 06 R118, R119, 10 R226: settype (the request of the immediate form is its seven bits; VTYPE reads back as 06 R119 lays it out)
and setshape, which grants rows up to 32 and the row budget, columns up to 32. -/
def Obligations.TypeAndShape : Prop :=
  (∀ (s : State) (d xa : XReg) (imm : BitVec 7),
      ∀ p ∈ [(Instr.settypeImm d imm, imm.setWidth 64), (.settypeReg d xa, s.getX xa)],
        ∃ t, exec p.1 s = .next t
          ∧ t = { s with me := { s.me with pc := s.me.pc + 8, x := t.me.x, vl := 0, vstart := 0, vtype := t.me.vtype } }
          ∧ (∀ r, t.getX r = if r = d ∧ r ≠ 0 then (if p.2.toNat < 128 ∧ p.2.toNat % 8 < 5 then 0 else 1) else s.getX r)
          ∧ t.csrValue 0x101 = if p.2.toNat < 128 ∧ p.2.toNat % 8 < 5 then p.2 else 0x8000000000000000)
  ∧ (∀ (s : State) (d xa xb : XReg) (rows cols : BitVec 6),
      let eff := min (s.cluster s.me.cluster).lbudget (s.cluster s.me.cluster).lbcap
      let budget := max 1 (32 * eff / (4 * s.laneCount s.me.cluster))
      ∀ p ∈ [(Instr.setshapeReg d xa xb, (s.getX xa).toNat, (s.getX xb).toNat), (.setshapeImm d rows cols, rows.toNat, cols.toNat)],
        let r := min p.2.1 (min 32 budget)
        let c := min p.2.2 32
        Answers s { s with me := { s.me with rows := BitVec.ofNat 6 r, cols := BitVec.ofNat 6 c } } (exec p.1 s) (s.me.pc + 8) d
          (BitVec.ofNat 64 (r + 256 * c)))

/-- 03 R86, R87: setvl. LC is the lanes of the cluster that a grant can name, E the elements of a group, G the grouping. The stream form
takes min(xA, remaining): what remains after every earlier instruction, 0 for a closed stream. It waits while an earlier instruction moves the
stream by a number that is not known yet. -/
def Obligations.VectorLength : Prop :=
  ∀ (s : State) (d xa : XReg) (imm : Imm19) (n : BitVec 2),
    let vt := s.me.vtype
    let lanes := s.me.lanes
    let e := 256 / 2 ^ (vt.wid.toNat + 2)
    let g := 2 ^ vt.grp.toNat
    let lc := s.laneCount s.me.cluster
    let eff := min (s.cluster s.me.cluster).lbudget (s.cluster s.me.cluster).lbcap
    let vl (req : Nat) := min req (min (lanes * 4 * g * e) (max 1 (eff * lanes / lc) * g * e))
    let st := s.me.streams[n.toNat]'(by have := n.isLt; omega)
    let answers (i : Instr) (req : Nat) :=
      Answers s { s with me := { s.me with vl := vl req, vstart := 0 } } (exec i s) (s.me.pc + 8) d (BitVec.ofNat 64 (vl req))
    (vt.vill = false → answers (.setvlReg d xa) (s.getX xa).toNat
      ∧ answers (.setvlImm d imm) imm.toNat
      ∧ (s.me.win = [] → st.opened = false → answers (.setvlStream d xa n) 0)
      ∧ (s.me.win = [] → st.opened = true → st.fib = false →
          answers (.setvlStream d xa n) (min (s.getX xa).toNat (sdT st.desc - st.pos)))
      ∧ (s.me.streamsPending n.toNat = false → answers (.setvlStream d xa n) (min (s.getX xa).toNat (s.me.atIssue.remaining n.toNat)))
      ∧ (s.me.streamsPending n.toNat = true → exec (.setvlStream d xa n) s = .next s))
    ∧ (vt.vill = true → TrapsHandled s → ∀ i ∈ [Instr.setvlReg d xa, .setvlImm d imm, .setvlStream d xa n],
        Trapped s (exec i s) 0x0A 0 0)

/-- 03 R89, R90, 01 R16: the five CSR forms on any number but CEGO, and FCSR_ACCESS and VSTART_ACCESS; xD receives the old value. An access to FCSR or
VSTART passes a window that a trap holds (log 17: the model's choice). -/
def Obligations.CsrForms : Prop :=
  ∀ (s : State) (op : CsrOp) (d xa : XReg) (csr : BitVec 12),
    let n := csr.toNat
    let old := s.csrValue n
    let s1 := match csrWritten op old (s.getX xa) with
      | some v => s.writeCsr n v
      | none => s
    (CsrReady s n → n ≠ 0x208 →
      ∀ i ∈ csrForm op d csr xa :: ((if n = 0x000 then [.fcsrAccess op d xa] else []) ++ (if n = 0x102 then [.vstartAccess op d xa] else [])),
        (op ≠ .w → Answers s s1 (exec i s) (s.me.pc + 8) d old)
        ∧ (op = .w → exec i s = .next { s1 with me := { s1.me with pc := s.me.pc + 8 } }))
    ∧ (AssignedCsr n → (n = 0x000 ∨ n = 0x102) → s.me.held = false → s.me.win ≠ [] → exec (csrForm op d csr xa) s = .next s)
    ∧ (n = 0x000 → (∃ g ∈ s.me.gq, ∃ h ∈ g, h.adds ≠ []) → exec (csrForm op d csr xa) s = .next s)
    ∧ (TrapsHandled s → ¬ AssignedCsr n → Trapped s (exec (csrForm op d csr xa) s) 0x01 0 0)
    ∧ (TrapsHandled s → AssignedCsr n → SupervisorCsr n → s.me.priv = .job →
        Trapped s (exec (csrForm op d csr xa) s) 0x02 0 (csr.setWidth 64))

/-- 01 R16, 04 R97 to R100, 14 R271, 19 R330, R331, R342: a write to a CSR that is the thread's own leaves the written bits in its fields and
changes no other CSR (SLOT of ESLOT is set only with PAIR, 02 R45); a write to a read-only number is ignored (00 R5); FLASHCHR, LBUDGET and SLACK, by
csrw or as the events of the table. -/
def Obligations.CsrWrites : Prop :=
  (∀ (s : State) (n : Nat) (v : Word),
      (csrMask n ≠ 0 →
        (s.writeCsr n v).csrValue n = (if n = 0x304 ∧ v.getLsbD 1 = false then 0 else v &&& csrMask n) ||| (if n = 0x309 then s.csrValue n &&& 4 else 0)
        ∧ (∀ k, k ≠ n → (s.writeCsr n v).csrValue k = s.csrValue k)
        ∧ (∃ m : Thread, s.writeCsr n v = { s with me := { s.me with
            fz := m.fz, rm := m.rm, flags := m.flags, vstart := m.vstart, epc := m.epc, ecause := m.ecause, einfo := m.einfo, eaddr := m.eaddr,
            eslot := m.eslot, estream := m.estream, bto := m.bto, fto := m.fto, tvec := m.tvec, psup := m.psup, tip := m.tip, ce := m.ce } }))
      ∧ (csrMask n = 0 → n ≠ 0x400 → n ≠ 0x401 → n ≠ 0x406 → s.writeCsr n v = s))
  ∧ (∀ (s : State) (v : Word),
      (∃ t, exec (.flashchrWrite v) s = .next t ∧ s.writeCsr 0x400 v = t ∧ t = { s with clusters := t.clusters }
        ∧ (ClusterKnown s → t.csrValue 0x400 = v &&& 0xFFFF) ∧ ∀ k, k ≠ 0x400 → t.csrValue k = s.csrValue k)
      ∧ (∃ t, exec (.lbudgetWrite v) s = .next t ∧ s.writeCsr 0x401 v = t ∧ t = { s with clusters := t.clusters }
        ∧ (ClusterKnown s → t.csrValue 0x401
            = BitVec.ofNat 64 (max 1 (min (v.toNat % 1024) (4 * s.laneCount s.me.cluster))))
        ∧ ∀ k, k ≠ 0x401 → k ≠ 0x405 → t.csrValue k = s.csrValue k)
      ∧ (∃ t, exec (.slackWrite v) s = .next t ∧ s.writeCsr 0x406 v = t
        ∧ t = { s with slack := v &&& 0xFFFF, power := { s.power with
            slackSum := s.power.slackSum + (v.extractLsb' 0 16).toInt, slackCount := s.power.slackCount + 1 } }
        ∧ t.csrValue 0x406 = v &&& 0xFFFF ∧ ∀ k, k ≠ 0x406 → t.csrValue k = s.csrValue k))

/-- 03 R92, R91: drain goes on where every named queue is empty, and otherwise stays. An entry of val that a trap has freed is not reserved. A window that a
trap holds counts as passed (log 17: the model's choice). -/
def Obligations.Drain : Prop :=
  ∀ (s : State) (q : BitVec 3),
    let cmd := s.me.held = true ∨ ∀ e ∈ s.me.win, e.queued = true
    let val := (∀ e ∈ s.me.win, e.reserved = false) ∧ s.me.vals = [] ∧ ∀ o ∈ s.me.owed, o.2 = false
    let st := s.me.st = [] ∧ (s.me.held = true ∨ ∀ e ∈ s.me.win, e.isStoring s.me = false)
    let empty := (q.getLsbD 0 = true → cmd) ∧ (q.getLsbD 1 = true → val) ∧ (q.getLsbD 2 = true → st)
    (empty → Skipped s (exec (.drain q) s)) ∧ (¬ empty → exec (.drain q) s = .next s)

/-- 04 R102, R98: the software trap, at either privilege level, and the words of OP 0x60 that name it or eret. -/
def Obligations.SoftwareTrap : Prop :=
  (∀ (s : State) (imm : BitVec 12), TrapsHandled s → Trapped s (exec (.trap imm) s) 0x0E imm 0)
  ∧ (∀ (fn : BitVec 6) (d a b c : BitVec 5) (k : BitVec 3) (h : BitVec 6) (x : BitVec 19),
    let w := sWord 0x60 fn d a b c k h x
    let regs := d = 0 ∧ a = 0 ∧ b = 0 ∧ c = 0 ∧ k = 0
    decodeFetched w = if regs ∧ fn = 0 ∧ x.toNat < 4096 then .trap (x.setWidth 12)
      else if regs ∧ fn = 1 ∧ x = 0 then .eret else .illegalWord w)
  ∧ decode 0x1800000000000005 = .ok (.trap 5)

/-- 04 R101, 15 R293, R294: a trap that no handler takes ends the launch. Its record counts the fault, with cause 0x10 while a trap is in
progress, else CODE; the first fault fills FCODE and FTID; every thread of the launch retires, one between the slots of a pair word once it has left them
(02 R46). -/
def Obligations.UnhandledTrapEndsLaunch : Prop :=
  ∀ (s : State) (imm : BitVec 12) (l : Launch), s.me.tip = true ∨ s.me.tvec = 0 → s.me.status ≠ .retired → l ∈ s.launches →
    l.lid = s.me.lid → l.live = true →
    ∃ t l', exec (.trap imm) s = .next t ∧ l' ∈ t.launches ∧ l'.lid = l.lid
      ∧ l'.faults = min (l.faults + 1) (2 ^ 32 - 1)
      ∧ (l.faults = 0 → l'.fcode = (if s.me.tip then 0x10 else 0x0E) ∧ l'.ftid = s.me.tid ∧ l'.faddr = 0)
      ∧ (l.faults ≠ 0 → l'.fcode = l.fcode ∧ l'.ftid = l.ftid ∧ l'.faddr = l.faddr)
      ∧ l'.endCode = (if l.endCode = 0 then 1 else l.endCode)
      ∧ t.me.status = .retired ∧ t.mem = s.mem
      ∧ ∀ o ∈ t.others, o.lid = s.me.lid → o.status = .retired ∨ (o.between = true ∧ o.due = .retire)

/-- 04 R103, R96, R104, 02 R44: eret. The window, if one is held, is live again with its operations and completion maps, and its oldest entry takes a
VSTART that was written; it replays, and every value it will return is reserved again (03 R91). What slot 0 wrote over is kept where slot 1 alone issues next
(02 R41, log 36). Nothing else changes. -/
def Obligations.TrapReturn : Prop :=
  ∀ (s : State),
    let kept (e : Entry) := (e.op, e.op2, e.pc, e.word, e.scal, e.map0, e.map1, e.ret)
    (s.me.priv = .sup → ∃ u : State, exec .eret s = .next u
      ∧ u = { s with me := { s.me with
          pc := s.me.epc, priv := if s.me.psup then .sup else .job, tip := false, held := false, only1 := decide (s.me.eslot = 3)
          before := if s.me.eslot = 3 then s.me.before else none
          vstart := if s.me.held then 0 else s.me.vstart, win := u.me.win } }
      ∧ u.me.win.map kept = s.me.win.map kept
      ∧ (s.me.held = false → u.me.win = s.me.win)
      ∧ (∀ e r, s.me.held = true → s.me.win = e :: r →
        u.me.win.map (fun e : Entry => e.vstart) = (if s.me.vstart = 0 then e.vstart else s.me.vstart.toNat) :: r.map (fun e : Entry => e.vstart)
        ∧ ∀ o ∈ u.me.win, o.reserved = o.ret.isSome ∧ o.replay = true))
    ∧ (s.me.priv = .job → TrapsHandled s → Trapped s (exec .eret s) 0x02 0 0)


/-- 15 R284, 01 R11, 15 R283: join and leave. -/
def Obligations.JoinAndLeave : Prop :=
  ∀ (s : State) (d xa : XReg),
    let c := (s.getX xa).extractLsb' 0 16
    let record := s.crews.find? (fun r => r.num == c)
    let i := Instr.join d xa
    let joined : State := { s with
      crews := (crewsLeft s s.me.crew).map (fun r => if r.num = c then { r with members := r.members + 1 } else r)
      me := { s.me with crew := c } }
    let left : State := { s with crews := crewsLeft s s.me.crew, me := { s.me with crew := 0 } }
    (c = 0 ∨ record = none → Wrote s (exec i s) d 1)
    ∧ (∀ r, c ≠ 0 → record = some r →
        (c = s.me.crew → Wrote s (exec i s) d 0)
        ∧ (c ≠ s.me.crew → r.gang ≠ none → Wrote s (exec i s) d 2)
        ∧ (c ≠ s.me.crew → r.gang = none → Answers s joined (exec i s) (s.me.pc + 8) d 0))
    ∧ (s.me.crew = 0 → Wrote s (exec (.leave d) s) d 1)
    ∧ (s.me.crew ≠ 0 → Answers s left (exec (.leave d) s) (s.me.pc + 8) d 0)

/-- 15 R289 to R291, 01 R14, 04 R100: a launch that is rejected, or finds no room, answers so and changes nothing else. An accepted launch
answers the next identifier, records the launch, and creates each of its threads. One for which too few thread numbers are free finds no room (log 5: the
model's choice). -/
def Obligations.Launches : Prop :=
  ∀ (s s1 : State) (d xa : XReg) (off : Imm19) (b : BitVec 512), BlockGives s (s.getX xa + off.signExtend 64) b s1 →
      (∀ n, LaunchBad s1 b n → (∀ m, m < n → ¬ LaunchBad s1 b m) →
        Answers s s1 (exec (.launch d xa off) s) (s.me.pc + 8) d (BitVec.ofNat 64 (2 ^ 62 + n * 2 ^ 16)))
      ∧ ((∀ n, ¬ LaunchBad s1 b n) → ¬ LaunchFits s1 b → Answers s s1 (exec (.launch d xa off) s) (s.me.pc + 8) d 0x8000000000000000)
      ∧ ((∀ n, ¬ LaunchBad s1 b n) → LaunchFits s1 b → s1.me.status = .running →
        ∃ t, exec (.launch d xa off) s = .next t
          ∧ t.me = { s1.me with pc := s.me.pc + 8, x := t.me.x }
          ∧ (∀ r, t.getX r = if r = d ∧ r ≠ 0 then BitVec.ofNat 64 s1.nextLid else s.getX r)
          ∧ t.nextLid = (s1.nextLid + 1) % 2 ^ 32
          ∧ (∃ l ∈ t.launches, l.lid = s1.nextLid ∧ l.block = b ∧ l.live = true ∧ l.started = 0 ∧ l.retired = 0 ∧ l.faults = 0 ∧ l.endCode = 0
              ∧ l.root = s.me.root)
          ∧ (∀ k, k < (b.extractLsb' 128 32).toNat → ∃ u ∈ t.others, CreatedThread s b s1.nextLid k u ∧ u.tid ≠ s.me.tid)
          ∧ t.mem = s1.mem ∧ t.time = s.time)

/-- 15 R287, R293 to R295, 01 R11, R14, R26, 02 R46, 21 R392: exit with nothing outstanding retires the thread, and its channels are to be closed (log 27); a
window that is held is discarded first with what it owes (log 17: the model's choice). lend ends a live launch, and answers 1 for any other number; a job-level
thread is trapped; a thread that waits at exit keeps its exit status; one between the slots of a pair word retires once it has left them. A launch that has
ended with nothing under way writes its record, then its signal word, in one event (log 22: the model's choice, as is TEND for the TSTART of a launch no
thread of which was placed), and is live no more; no core keeps its instruction lines as known. -/
def Obligations.ThreadAndLaunchEnd : Prop :=
  ((∀ (s : State) (xa : XReg),
        let empty := (s.me.held = true ∨ (s.me.win = [] ∧ ∀ o ∈ s.me.owed, o.2 = false)) ∧ s.me.vals = [] ∧ s.me.st = []
        (empty → ∃ t, exec (.exit xa) s = .next t
          ∧ t.me.status = .retired ∧ t.me.crew = 0 ∧ t.me.win = [] ∧ t.me.streams.toList.all (fun st => !st.opened) = true
          ∧ t.me.x = s.me.x ∧ t.crews = crewsLeft s s.me.crew ∧ t.mem = s.mem ∧ t.others = s.others
          ∧ (∀ c ∈ t.fab.senders, c.tid = s.me.tid → c.gone = true)
          ∧ t.launches = s.launches.map (fun l => if l.lid = s.me.lid ∧ l.live = true then
              { l with
                retired := l.retired + 1
                xcode := l.xcode ||| (s.getX xa).extractLsb' 0 8
                tend := if l.retired + 1 = (l.block.extractLsb' 128 32).toNat then s.time else l.tend } else l))
        ∧ (¬ empty → exec (.exit xa) s = .next { s with me := { s.me with
            exiting := some ((s.getX xa).extractLsb' 0 8)
            win := if s.me.held then [] else s.me.win, held := false, owed := if s.me.held then [] else s.me.owed } }))
    ∧ (∀ (s : State) (d xa : XReg),
        let lid := (s.getX xa).toNat % 2 ^ 32
        let live := ∃ l ∈ s.launches, l.lid = lid ∧ l.live = true
        (s.me.priv = .sup → ¬ live → Wrote s (exec (.lend d xa) s) d 1)
        ∧ (s.me.priv = .sup → live → ∃ t, exec (.lend d xa) s = .next t
            ∧ (∀ u ∈ t.me :: t.others, u.lid = lid → u.status = .retired ∨ (u.between = true ∧ u.due = .retire))
            ∧ (s.me.lid ≠ lid → t.me = { s.me with pc := s.me.pc + 8, x := t.me.x }
                ∧ ∀ r, t.getX r = if r = d ∧ r ≠ 0 then 0 else s.getX r)
            ∧ ((∃ u ∈ s.me :: s.others, u.lid = lid ∧ u.status ≠ .retired ∧ u.exiting = none) →
                ∀ l ∈ t.launches, l.lid = lid → l.live = true → l.endCode ≠ 0)
            ∧ (∀ u ∈ s.me :: s.others, ∀ c, u.lid = lid → u.status ≠ .retired → u.between = false → u.exiting = some c →
                ∀ l ∈ t.launches, l.lid = lid → l.live = true → l.xcode &&& c = c)
            ∧ t.mem = s.mem)
        ∧ (s.me.priv = .job → TrapsHandled s → Trapped s (exec (.lend d xa) s) 0x02 0 0)))
  ∧ (∀ (s : State) (lid : Nat),
      let i := Instr.launchComplete lid
      ((∀ l ∈ s.launches, l.lid = lid → l.live = false) → exec i s = .next s)
      ∧ ∀ l, s.launches.find? (fun l => l.lid == lid && l.live) = some l →
        let b := l.block
        let done := l.retired = (b.extractLsb' 128 32).toNat
          ∧ (∀ c ∈ s.clusters, (∀ x ∈ c.copies, x.lid ≠ lid) ∧ ∀ w ∈ c.welts, w.lid ≠ lid)
          ∧ ∀ u ∈ s.me :: s.others, u.lid = lid → u.st = [] ∧ u.gq = []
        let record := leBytes 1 l.endCode ++ leBytes 1 l.xcode.toNat ++ leBytes 2 0 ++ leBytes 4 l.faults ++ leBytes 4 l.started
          ++ leBytes 4 l.retired ++ leBytes 1 l.fcode.toNat ++ leBytes 1 l.fsrc.toNat ++ leBytes 2 0 ++ leBytes 4 l.ftid
          ++ leBytes 8 l.faddr.toNat ++ leBytes 8 (l.tstart.getD l.tend) ++ leBytes 8 l.tend ++ leBytes 4 l.lid ++ leBytes 12 0
        let ended := s.launches.map (fun k => if k.lid = lid ∧ k.live = true then { k with recorded := true, live := false } else k)
        let crew := b.extractLsb' 160 16
        let crews := if b.extractLsb' 176 8 = 0 then s.crews else
          (s.crews.map (fun c => if c.num = crew then { c with live := c.live - 1 } else c)).filter (fun c => c.members != 0 || c.live != 0)
        let env : Env := ⟨0, 0xFF, l.root, if b.getLsbD 199 then .sup else .job⟩
        (¬ done → exec i s = .next s)
        ∧ (done → ∃ (u v t : State), exec i s = .next t
            ∧ LaunchWrites s u env (b.extractLsb' 384 64) record
            ∧ (b.extractLsb' 448 64 = 0 → v = u)
            ∧ (b.extractLsb' 448 64 ≠ 0 → LaunchWrites u v env (b.extractLsb' 448 64) (leBytes 4 (b.extractLsb' 224 32).toNat))
            ∧ t = { s with
                mem := v.mem, launches := ended, crews := crews
                cores := s.cores.map (fun c => { c with seen := c.seen.filter (fun n => n != lid) }) }))

/-- 15 R286, R288, 01 R24, 04 R109: yield goes on where no thread of its level or a higher one is queued for the cluster, and otherwise parks, as yield.park
of a supervisor does always; a job-level thread that executes yield.park is trapped. A parked thread has what it released performed, leaves the matrix
engine, and continues after the instruction (`parkedAt`). The premises of the parking leave out what parks further threads with it: a gang (R285), and a
holder of a lower level that makes room (R302); and what is parked at another moment: a thread of a halted core, between two slots, or with a fault.
hprio of a job-level thread counts only for its launch level or a numerically higher one. -/
def Obligations.YieldAndHints : Prop :=
  (∀ (s : State),
      let rival : Prop := ∃ o ∈ s.queue s.me.cluster, o.level ≤ s.me.level ∧ o.tid ≠ s.me.tid
      let s1 := ({ s with me := { s.me with pc := s.me.pc + 8 } } : State).performReleased.leaveEngine s.me.tid
      let parks (i : Instr) : Prop := exec i s = .next { s1 with me := parkedAt s1.me s.time }
      (¬ rival → Skipped s (exec .yield s))
      ∧ (s.me.status = .running → s.me.fault = none → s.gangOf s.me = none → s.halted s.me.core = false → s.me.only1 = false →
          (∀ o ∈ s.others, o.status = .running ∨ o.status = .waiting → o.cluster = s.me.cluster → o.level ≤ s.me.level) →
          (rival → parks .yield) ∧ (s.me.priv = .sup → parks .yieldPark))
      ∧ (s.me.priv = .job → TrapsHandled s → Trapped s (exec .yieldPark s) 0x02 0 0))
  ∧ (∀ (s : State) (lvl : BitVec 3) (xa : XReg),
      exec (.hprio lvl) s = .next { s with me := { s.me with
        pc := s.me.pc + 8
        wantLevel := if s.me.priv = .sup ∨ s.me.launchLevel ≤ lvl.toNat then some lvl.toNat else s.me.wantLevel } }
      ∧ exec (.hafn xa) s = .next { s with me := { s.me with pc := s.me.pc + 8, hafn := some ((s.getX xa).toNat % 16) } })


/-- 14 R269, R270, 15 R299, 01 R25: waitaddr, waitaddr.32, cewait and bywait. The word is read at its home whatever its full/empty bit, a word of the
capability table among them (20 R361); a poisoned one is the trap of 03 R72. The access uses its translation most recently (18 R317). -/
def Obligations.WaitsBegin : Prop :=
  ∀ (s : State) (d xa xb xc : XReg) (off : Imm19) (x : Xlat) (h : Nat),
    let ea := s.getX xa + off.signExtend 64
    let b := s.getX xb
    let until_ := min (s.time + (s.getX xc).toNat) (2 ^ 64 - 1)
    let id := (s.getX xa).toNat % 2 ^ 16
    let u := s.hit none ea
    let home : Prop := x.place = .near h ∨ ∃ o, x.place = .cap o ∧ h = s.capBase + o ∧ ea.toNat < 0x000FFF0000000000
    let word := Instr.waitaddr d xa xb xc off
    let half := Instr.waitaddr32 d xa xb xc off
    let buoy := Instr.bywait d xa xb xc off
    (s.checkAccess .load ea 8 = .ok x → home →
      (s.mem.poisonAt h 8 = none → WaitBegins u (fun v => v) (exec word s) d ⟨.word, h, ea, b, d, until_, none⟩ (BitVec.ofNat 64 (s.waitNumber h 8) ≠ b))
      ∧ (s.mem.poisonAt h 8 ≠ none → TrapsHandled s → Trapped u (exec word s) 0x09 0 (ea &&& ~~~7)))
    ∧ (s.checkAccess .load ea 4 = .ok x → home →
      (s.mem.poisonAt h 4 = none → WaitBegins u (fun v => v) (exec half s) d ⟨.half, h, ea, b, d, until_, none⟩
        (BitVec.ofNat 32 (s.waitNumber h 4) ≠ b.extractLsb' 0 32))
      ∧ (s.mem.poisonAt h 4 ≠ none → TrapsHandled s → Trapped u (exec half s) 0x09 0 (ea &&& ~~~7)))
    ∧ WaitBegins s (fun u => u) (exec (.cewait d xa xc) s) d ⟨.copy, id, 0, 0, d, until_, none⟩
        (∀ c ∈ (s.cluster s.me.cluster).copies, c.tid = s.me.tid → c.id % 2 ^ 16 ≠ id)
    ∧ (BuoyAt s .load ea h →
      (s.mem.poisonAt h 8 = none → WaitBegins s (fun u => afterFence u (buoyScope h) 7) (exec buoy s) d ⟨.buoy, h, ea, b, d, until_, none⟩
        (BitVec.ofNat 4 (s.mem.number (h + 4) 4) ≠ b.extractLsb' 0 4))
      ∧ (s.mem.poisonAt h 8 ≠ none → TrapsHandled s → Trapped s (exec buoy s) 0x09 0 (ea &&& ~~~7)))

/-- 01 R24, R25, 14 R269, 15 R299: a wait of a thread that runs on a core that is not halted ends by the test of its event, or at its deadline, where the
event goes before the timeout. The thread goes on with the status 0 or 1, or takes the trap of a word that cannot be read. -/
def Obligations.WaitsEnd : Prop :=
  ∀ (s : State) (w : Wait), s.me.wait = some w → w.done = none → s.me.status = .waiting → s.halted s.me.core = false →
    let after (u : State) : State := if w.kind = .buoy then afterFence u (buoyScope w.target) 7 else u
    let event := exec (.waitEvent s.me.tid) s
    let deadline := exec (.waitDeadline s.me.tid) s
    let s1 := s.tick w.deadline
    (s.waitPoisoned w s.me = false →
      (s.waitMet w s.me = true → Answers s (after (waitOver s w)) event (s.me.pc + 8) w.dest 0)
      ∧ (s.waitMet w s.me = false → event = .next s))
    ∧ (s1.waitPoisoned w s.me = false →
      (s1.waitMet w s.me = true → Answers s (after (waitOver s1 w)) deadline (s.me.pc + 8) w.dest 0)
      ∧ (s1.waitMet w s.me = false → Answers s (waitOver s1 w) deadline (s.me.pc + 8) w.dest 1))
    ∧ ∀ code detail addr, TrapsHandled s →
      (s.waitAt w s.me = .error (code, detail, addr) → Trapped s event code detail addr)
      ∧ (s1.waitAt w s.me = .error (code, detail, addr) → Trapped s1 deadline code detail addr)

/-- 15 R297, R298, 16 R305: byinit, and byarrive once its fence part has nothing to wait for. The old PHASE stands in bits [7:4] of the
status of an arrival. The fence part of byarrive passes a window that a trap holds (log 17: the model's choice). -/
def Obligations.Buoys : Prop :=
  (∀ (s : State) (d xa xb : XReg) (off : Imm19) (h : Nat),
      let ea := s.getX xa + off.signExtend 64
      let x := s.getX xb
      let i := Instr.byinit d xa xb off
      BuoyAt s .store ea h →
        (x.extractLsb' 0 16 = 0 ∨ x.extractLsb' 32 32 ≠ 0 → Wrote s (exec i s) d 2)
        ∧ (x.extractLsb' 0 16 ≠ 0 → x.extractLsb' 32 32 = 0 → s.mem.wf = true →
          ∃ t, exec i s = .next t ∧ t = { s with me := { s.me with pc := s.me.pc + 8, x := t.me.x }, mem := t.mem }
            ∧ (∀ r, t.getX r = if r = d ∧ r ≠ 0 then 0 else s.getX r)
            ∧ Stored s t h (leBytes 16
                (0#64 ++ x.extractLsb' 16 16 ++ 0#10 ++ 1#1 ++ 0#5 ++ 0#16 ++ x.extractLsb' 0 16 : BitVec 128).toNat)))
  ∧ (∀ (s : State) (d xa : XReg) (n : BitVec 8) (h : Nat),
      let i := Instr.byarrive d xa n
      let b := BitVec.ofNat 128 (s.mem.number h 16)
      let expect := (b.extractLsb' 0 16).toNat
      let arrived := (b.extractLsb' 16 16).toNat
      let phase := b.extractLsb' 32 4
      let crew := b.extractLsb' 48 16
      let open_ := b.getLsbD 37 = true
      let mine := crew = 0 ∨ crew = s.me.crew
      let s1 := afterFence s (buoyScope h) 1
      let answers (status : Nat) (bits : Option (BitVec 128)) :=
        ∃ t, exec i s = .next t ∧ t = { s1 with me := { s1.me with pc := s.me.pc + 8, x := t.me.x }, mem := t.mem }
          ∧ (∀ r, t.getX r = if r = d ∧ r ≠ 0 then BitVec.ofNat 64 (16 * phase.toNat + status) else s.getX r)
          ∧ (match bits with | some v => Stored s t h (leBytes 16 v.toNat) | none => MemoryKept s t)
      BuoyAt s .atomic (s.getX xa) h → FenceReady s true 7 → s.mem.isEmptyAt h 16 = false → s.mem.poisonAt h 16 = none → s.mem.wf = true →
        (¬ open_ → answers 4 none)
        ∧ (open_ → ¬ mine → answers 3 none)
        ∧ (open_ → mine → expect < arrived + n.toNat → answers 2 (some (b ||| (1#128 <<< 36))))
        ∧ (open_ → mine → arrived + n.toNat = expect →
            answers 1 (some (BitVec.ofNat 24 s.me.tid ++ BitVec.ofNat 40 s.time ++ b.extractLsb' 36 28 ++ (phase + 1) ++ 0#16 ++ b.extractLsb' 0 16)))
        ∧ (open_ → mine → arrived + n.toNat < expect →
            answers 0 (some (BitVec.ofNat 24 s.me.tid ++ b.extractLsb' 32 72 ++ BitVec.ofNat 16 (arrived + n.toNat) ++ b.extractLsb' 0 16))))

/-- 11 R256, R257, 21 R393: a fence below pod scope waits for its predecessor accesses, and then continues with its successor side done; it writes no
register or byte. fence.pd waits for them too, and until every remote write of the thread has left; then its successor side is done, and it answers 0 where
there is nothing to sweep. Else it sends a marker to every package of the sweep set that a route of the pod serves and waits for the echoes; once they have
come it answers the status of the sweep: 0; 1 with the lowest package that was lost; else 2 with the lowest that was short, and the package in EINFO. The next
sweep has a new number (log 28: the model's). A window that a trap holds counts as passed (log 17: the model's choice). 14 R265, R267: lnempty of n lines that
lie side by side in one scratchpad sets them empty and changes no byte; any other run traps (log 12 for W of those traps). -/
def Obligations.FencesAndEmptyLines : Prop :=
  ((∀ (s : State) (sc : Scope) (uo : Bool) (pred succ : BitVec 7), sc ≠ .pd →
        let s1 := afterFence s sc succ
        (FenceReady s uo pred → exec (.fence sc uo pred succ) s = .next { s1 with me := { s1.me with pc := s.me.pc + 8 } })
        ∧ (¬ FenceReady s uo pred → exec (.fence sc uo pred succ) s = .next s))
    ∧ (∀ (s : State) (uo : Bool) (d : XReg) (pred succ : BitVec 7),
        let i := Instr.fencePd uo d pred succ
        let s1 := afterFence s .pd succ
        let swept (u : State) (info : Word) : State := { u with
          me := { u.me with ask := .none, sweep := [], ep := s.fab.nextEp, einfo := info }
          fab := { u.fab with nextEp := s.fab.nextEp + 1 } }
        ((∀ n left bad, s.me.ask ≠ .sweeping n left bad) →
          (¬ (FenceReady s uo pred ∧ WritesLeft s) → exec i s = .next s)
          ∧ (FenceReady s uo pred → WritesLeft s → s.me.sweep = [] → Answers s (swept s1 s.me.einfo) (exec i s) (s.me.pc + 8) d 0)
          ∧ (FenceReady s uo pred → WritesLeft s → s.me.sweep ≠ [] →
            let sent := s.me.sweep.foldl (fun u p =>
              if u.reaches p.1 = true then u.sendOrLose p.1 (.marker s.me.tid s.me.ep p.2 s.me.bto.toNat) else u) s1
            exec i s = .next { sent with me := { s1.me with ask := .sweeping s.time (s.me.sweep.map (·.1)) [] } }))
        ∧ ∀ n bad,
          (∀ p left, s.me.ask = .sweeping n (p :: left) bad → exec i s = .next s)
          ∧ (s.me.ask = .sweeping n [] bad →
            (bad = [] → Answers s (swept s s.me.einfo) (exec i s) (s.me.pc + 8) d 0)
            ∧ ∀ p st, (p, st) ∈ bad → (∀ q ∈ bad, q.2 = 1 ∨ q.2 = 2) → (st = 2 → ∀ q ∈ bad, q.2 = 2) → (∀ q ∈ bad, q.2 = st → p ≤ q.1) →
              Answers s (swept s (BitVec.ofNat 64 (p * 2 ^ 32))) (exec i s) (s.me.pc + 8) d (BitVec.ofNat 64 (st + p * 2 ^ 32)))))
  ∧ (∀ (s : State) (xa xb : XReg) (off : Imm19),
      let ea := s.getX xa + off.signExtend 64
      let n := (s.getX xb).toNat
      let last := ea + BitVec.ofNat 64 (128 * (n - 1))
      let run (h : Nat) : Prop := 0x000FFF0000000000 ≤ ea.toNat ∧ ea.toNat + 128 * (n - 1) < 2 ^ 52 ∧ isScratch h = true
        ∧ isScratch (h + 128 * (n - 1)) = true ∧ (∃ x, s.translate s.env .load none ea = .ok x ∧ x.place = .near h)
        ∧ ∃ y, s.translate s.env .load none last = .ok y ∧ y.place = .near (h + 128 * (n - 1))
      let i := Instr.lnempty xa xb off
      let remote : BitVec 12 := if s.peekRemote s.env ea then 2 else 0
      (n = 0 → Skipped s (exec i s))
      ∧ (n ≠ 0 → ea.toNat % 128 = 0 → ∀ h, run h →
          ∃ t, exec i s = .next t
            ∧ t = { s with me := { s.me with pc := s.me.pc + 8 }, mem := { s.mem with empties := t.mem.empties } }
            ∧ ∀ l, l ∈ t.mem.empties ↔ l ∈ s.mem.empties ∨ (h / 128 ≤ l ∧ l < h / 128 + n))
      ∧ (TrapsHandled s → n ≠ 0 → ea.toNat % 128 ≠ 0 → Trapped s (exec i s) 0x06 remote ea)
      ∧ (TrapsHandled s → n ≠ 0 → ea.toNat % 128 = 0 → (∀ h, ¬ run h) → Trapped s (exec i s) 0x08 remote ea))


/-- 01 R19, R21, 04 R99, R104, 06 R122, 08 R171, 09 R207: every execute-class instruction but sopen, fopen and cbkld. Where its checks pass it stands as the
youngest entry of the window, which the lanes then run (LaneEvents and the statements before it); where it performs nothing it only continues, or, where its
VSTART is not below VL, stands there to move the ports it reads (log 36); with a window held, or where a check fails, it is a trap at the word. One whose
stream error names a fibre whose row has still to be read waits. -/
def Obligations.ExecuteClassIssue : Prop :=
  ∀ (s : State) (op : EOp), opensStream op = false →
    (IssueOk s op → ¬ PerformsNothing s op →
      ∃ t : State, exec op.instr s = .next t ∧ Entered s t op none (op.xs.map s.getX) 0 ∧ t.me.only1 = s.me.only1)
    ∧ (IssueOk s op → PerformsNothing s op → s.me.vl = 0 ∨ s.me.atIssue.popsOf op = [] →
      exec op.instr s = .next { s with me := { s.me with vstart := 0, pc := s.me.pc + 8 } })
    ∧ (IssueOk s op → PerformsNothing s op → s.me.vl ≠ 0 → s.me.atIssue.popsOf op ≠ [] →
      ∃ e : Entry, exec op.instr s = .next { s with me := { s.me with win := s.me.win ++ [e], vstart := 0, pc := s.me.pc + 8 } }
        ∧ e.op = op ∧ e.op2 = none ∧ e.idle = true ∧ e.map0 = BitVec.allOnes 256 ∧ e.vl = s.me.vl ∧ e.held = [] ∧ e.ret = none)
    ∧ (s.rowWait op = true → exec op.instr s = .next s)
    ∧ (s.me.held = true → TrapsHandled s → Trapped s (exec op.instr s) 0x11 0 0)
    ∧ (∀ f, s.me.held = false → s.rowWait op = false → s.me.atIssue.issueFail op (op.xs.map s.getX) = some f → TrapsHandled s →
      ∃ t, exec op.instr s = .next t ∧ t.me.pc = s.me.tvec ∧ t.me.epc = s.me.pc ∧ t.me.ecause = (f.src ++ f.code).setWidth 64
        ∧ t.me.einfo = f.detail ++ s.me.pc.setWidth 52 ∧ t.me.estream = f.stream ∧ t.me.x = s.me.x ∧ t.mem = s.mem)

/-- 08 R174 to R189, 07 R156, R160, R165, R166: the result of every vector compute operation on one element, given its operands: x of the first source, y
of the second, z of the destination, as bits. Floating-point results are the exact result, rounded once. Which part a conversion between widths reads or
leaves alone is R183; vsegmax is in GroupPerformed. -/
def Obligations.ElementValues : Prop :=
  (∀ (s : State) (w : Work) (ty : Ty) (m : Mask) (d a : VReg) (b : VSrc) (i x y z : Nat) (p : Pred) (ka kb kd : KReg) (u v : Bool),
    let n := ty.fmt.width
    let bx := BitVec.ofNat n x
    let b_y := BitVec.ofNat n y
    let bz := BitVec.ofNat n z
    let ix : Int := if ty.nat then (x : Int) else bx.toInt
    let iy : Int := if ty.nat then (y : Int) else b_y.toInt
    let lo : Int := if ty.nat then 0 else -(2 ^ (n - 1) : Int)
    let hi : Int := if ty.nat then 2 ^ n - 1 else 2 ^ (n - 1) - 1
    let sources (op : EOp) := s.operand { w with op := op } a n i = .ok x ∧ s.second { w with op := op } ty.fmt b i = .ok y
    x < 2 ^ n → y < 2 ^ n → z < 2 ^ n →
    (∀ q ∈ [(EOp.vaddInt ty m d a b, bx + b_y), (.vsubInt ty m d a b, bx - b_y), (.vmulInt ty m d a b, bx * b_y),
        (.vsll ty m d a b, bx <<< (y % n)), (.vsrl ty m d a b, bx >>> (y % n)),
        (.vsra ty m d a b, bx.sshiftRight (y % n)), (.vminInt ty m d a b, if ix ≤ iy then bx else b_y),
        (.vmaxInt ty m d a b, if ix ≤ iy then b_y else bx), (.vaddSat ty m d a b, BitVec.ofInt n (max lo (min hi (ix + iy)))),
        (.vsubSat ty m d a b, BitVec.ofInt n (max lo (min hi (ix - iy)))),
        (.vmulh ty m d a b, BitVec.ofInt n (ix * iy / 2 ^ n))],
      sources q.1 → ElementIs s q.1 w i q.2.toNat)
    ∧ (sources (.vcmpInt p ty m kd a b) → ∃ c, ElementIs s (.vcmpInt p ty m kd a b) w i c ∧ (predTrue p ix iy → c = 1) ∧ (¬ predTrue p ix iy → c = 0))
    ∧ (sources (.vmadd ty m d a b) → s.operand { w with op := .vmadd ty m d a b } d n i = .ok z →
        ElementIs s (.vmadd ty m d a b) w i (bx * b_y + bz).toNat)
    ∧ ElementIs s (.vid ty m d) w i (i % 2 ^ n)
    ∧ (s.me.kread ka i = .ok u → s.me.kread kb i = .ok v →
        ElementIs s (.kand kd ka kb) w i (u && v).toNat ∧ ElementIs s (.kor kd ka kb) w i (u || v).toNat
        ∧ ElementIs s (.kxor kd ka kb) w i (u != v).toNat ∧ ElementIs s (.kandn kd ka kb) w i (u && !v).toNat
        ∧ ElementIs s (.knot kd ka) w i (!u).toNat ∧ ElementIs s (.kset kd) w i 1))
  ∧ (∀ (s : State) (w : Work) (m : Mask) (d a r : VReg) (xb : XReg) (i x y : Nat) (ty : Ty) (key base : XReg),
    let wd := w.vt.width
    let scalar := (w.scal 0).toNat % 2 ^ wd
    (∀ q ∈ [(EOp.vand m d a (.vec r), x &&& y), (.vor m d a (.vec r), x ||| y), (.vxor m d a (.vec r), x ^^^ y)],
      s.operand { w with op := q.1 } a wd i = .ok x → s.operand { w with op := q.1 } r wd i = .ok y → ElementIs s q.1 w i q.2)
    ∧ (∀ q ∈ [(EOp.vand m d a (.scalar xb), x &&& scalar), (.vor m d a (.scalar xb), x ||| scalar), (.vxor m d a (.scalar xb), x ^^^ scalar),
        (.vmv m d a, x)],
      s.operand { w with op := q.1 } a wd i = .ok x → ElementIs s q.1 w i q.2)
    ∧ ElementIs s (.vbcast ty m d xb) w i ((w.scal 0).toNat % 2 ^ (if ty.fmt = .t6 then 6 else ty.fmt.width))
    ∧ ElementIs s (.vrngN32 m d key base) w i (counterRng (w.scal 0) (w.scal 1 + BitVec.ofNat 64 i)).toNat)
  ∧ (∀ (s : State) (w : Work) (ty : Ty) (m : Mask) (rms : Rms) (d a : VReg) (b : VSrc) (e : EReg) (inv : Bool) (i x y z sc : Nat) (p : Pred) (kd : KReg),
    let n := ty.fmt.width
    let eb := ebOf ty.fmt
    let fb := fbOf ty.fmt
    let fz := s.me.fz
    let mode := s.me.mode rms
    let v (k : Nat) : FpValue := (fpNum eb fb k).flushed eb fb fz
    let first (op : EOp) := s.operand { w with op := op } a n i = .ok x
    let second (op : EOp) := s.second { w with op := op } ty.fmt b i = .ok y
    let third (op : EOp) := s.operand { w with op := op } d n i = .ok z
    let answers (op : EOp) (q : Nat) (fl : Flags) := s.compute { w with op := op } i = .ok (q, fl)
    let gives (op : EOp) (mode : Mode) (r : Ideal) := ∃ q fl, answers op q fl ∧ Gives eb fb mode fz r q fl
    let nan := fpNan eb fb x || fpNan eb fb y
    let sig := fpSnan eb fb x || fpSnan eb fb y
    let signed (neg : Bool) : Nat := x % 2 ^ (n - 1) + if neg then 2 ^ (n - 1) else 0
    ty.fmt ∈ [Fmt.fp64, .fp32, .fp16, .bf16] → x < 2 ^ n → y < 2 ^ n → z < 2 ^ n →
    (∀ q ∈ [(EOp.vaddFp ty m rms d a b, idealAdd mode (v x) (v y)), (.vsubFp ty m rms d a b, idealAdd mode (v x) (v y).flip),
        (.vmulFp ty m rms d a b, idealMul (v x) (v y)), (.vdiv ty m rms d a b, idealDiv (v x) (v y))],
      first q.1 → second q.1 → gives q.1 mode q.2)
    ∧ (first (.vsqrt ty m rms d a) → gives (.vsqrt ty m rms d a) mode (idealRoot (v x)))
    ∧ (∀ q ∈ [(EOp.vfma ty m rms d a b, v x), (.vfnma ty m rms d a b, (v x).flip)],
      first q.1 → second q.1 → third q.1 → gives q.1 mode (idealFma mode true q.2 (v y) (v z)))
    ∧ (∀ q ∈ [(EOp.vminFp ty m rms d a b, false), (.vmaxFp ty m rms d a b, true)],
      first q.1 → second q.1 → answers q.1 (fpChosen eb fb fz q.2 x y) (onlyNv sig))
    ∧ (first (.vcmpFp p ty m kd a b) → second (.vcmpFp p ty m kd a b) → ∃ c,
      answers (.vcmpFp p ty m kd a b) c (onlyNv (sig || (nan && p != .eq && p != .ne)))
      ∧ (nan = true → c = if p = .ne then 1 else 0)
      ∧ (nan = false → (predTrue p (fpKey eb fb (fpFlushed eb fb fz x)) (fpKey eb fb (fpFlushed eb fb fz y)) → c = 1)
        ∧ (¬ predTrue p (fpKey eb fb (fpFlushed eb fb fz x)) (fpKey eb fb (fpFlushed eb fb fz y)) → c = 0)))
    ∧ (∀ q ∈ [(EOp.vsgn ty m d a b, signed (fpSign eb fb y)), (.vsgnn ty m d a b, signed (!fpSign eb fb y)),
        (.vsgnx ty m d a b, signed (fpSign eb fb x != fpSign eb fb y))],
      first q.1 → second q.1 → answers q.1 q.2 Flags.none)
    ∧ (s.me.eread e (i / 32) = .ok sc → first (.vscl inv ty m d a e) →
      (sc = 255 → answers (.vscl inv ty m d a e) (fpQnan eb fb) (onlyNv true))
      ∧ (sc ≠ 255 → gives (.vscl inv ty m d a e) (Mode.ofRm s.me.rm)
        (idealScaled eb fb fz (if inv then 127 - (sc : Int) else (sc : Int) - 127) (fpNum eb fb x)))))
  ∧ (∀ (s : State) (w : Work) (m : Mask) (rms : Rms) (part : BitVec 4) (dst src : Ty) (d a : VReg) (i j x : Nat),
    let op := EOp.vcvt m rms part dst src d a
    let fz := s.me.fz
    let mode := s.me.mode rms
    let n := src.fmt.width
    let int : Int := if src.nat then (x : Int) else (BitVec.ofNat n x).toInt
    let v := (numOf s.me.codebook src.fmt x).flushed (ebOf src.fmt) (fbOf src.fmt) fz
    let lo : Int := if dst.nat then 0 else -(2 ^ (dst.fmt.width - 1) : Int)
    let hi : Int := if dst.nat then 2 ^ dst.fmt.width - 1 else 2 ^ (dst.fmt.width - 1) - 1
    (partSource part.toNat dst.fmt.width n i = none → s.element { w with op := op } i = .ok (.nothing, Flags.none))
    ∧ (partSource part.toNat dst.fmt.width n i = some j → s.operand { w with op := op } a n j = .ok x → x < 2 ^ n → dst.fmt ≠ .k4 →
      (src.fmt.isInt = true → dst.fmt.isInt = true → ElementIs s op w i (BitVec.ofInt dst.fmt.width (max lo (min hi int))).toNat)
      ∧ (¬ (src.fmt.isInt = true ∧ dst.fmt.isInt = true) → ∃ q fl, s.compute { w with op := op } i = .ok (q, fl)
        ∧ (src.fmt.isInt = true → GivesIn dst.fmt mode fz (idealInt int) q fl)
        ∧ (src.fmt.isInt = false → dst.fmt.isInt = true → IntegerOf dst.fmt.width dst.nat mode v q fl)
        ∧ (src.fmt.isInt = false → dst.fmt.isInt = false → GivesIn dst.fmt mode fz (idealOf v) q fl))))
  ∧ (∀ (s : State) (w : Work) (ty : Ty) (d xb : XReg) (a : VReg) (i x : Nat),
    let op := EOp.vmvx ty d a xb
    (w.vl ≤ i → s.element { w with op := op } i = .ok (.value 0, Flags.none))
    ∧ (i < w.vl → s.operand { w with op := op } a ty.fmt.width i = .ok x → x < 2 ^ ty.fmt.width →
      ∃ v fl, s.element { w with op := op } i = .ok (.value v, fl) ∧ ReturnedAs s.me.codebook ty x v fl))
  ∧ ∀ (s : State) (w : Work) (pat : SalPat) (ty : Ty) (m : Mask) (kd : KReg) (a b : VReg) (i : Nat) (bit : Nat → Bool) (x y prod : Nat → Nat),
    let op := EOp.vsalsel pat ty m kd a b
    let keep := match pat with | .n2m4 => 2 | .n4m8 => 4 | .n1m4 => 1
    let size := match pat with | .n4m8 => 8 | _ => 4
    let inSet (j : Nat) : Bool := decide (j / size = i / size ∧ j < w.vl)
    let before := (List.range w.vl).filter (fun j => inSet j && bit j)
    ty.fmt.isInt = false → i < w.vl → (∀ j, inSet j = true → s.me.kread m.k j = .ok (bit j)) →
    (∀ j, inSet j = true → bit j = true → s.operand { w with op := op } a ty.fmt.width j = .ok (x j) ∧ s.operand { w with op := op } b ty.fmt.width j = .ok (y j)
      ∧ x j < 2 ^ ty.fmt.width ∧ y j < 2 ^ ty.fmt.width
      ∧ ∃ fl, Gives 8 23 .rne false (idealMul (numOf s.me.codebook ty.fmt (x j)) (numOf s.me.codebook ty.fmt (y j))) (prod j) fl) →
    ∃ c, ElementIs s op w i c ∧ (c = 1 ↔ bit i = true ∧ ∃ first : List Nat, first.length < keep ∧ ∀ j ∈ before, SalFirst prod j i → j ∈ first)
      ∧ (c = 1 ∨ c = 0)

/-- 02 R41, R43, R44, R46: a pair word reads the registers of both slots before either writes; two execute-class slots enter as one entry. Where slot 1 alone
issues after a return from its trap, it reads the registers as they stood before the word (R41; log 36 says what they are where software has set ESLOT by
hand). -/
def Obligations.PairWords : Prop :=
  ∀ (s : State) (p0 p1 : Slot), s.me.status = .running →
    (∀ v1, s.me.only1 = true → slotValue { s with me := { s.me with x := s.me.beforeWord } } p1 = some v1 →
      ∃ t, exec (.pairWord p0 p1) s = .next t
        ∧ t = { s with me := { s.me with pc := s.me.pc + 8, x := t.me.x, only1 := false, before := none } }
        ∧ ∀ r, t.getX r = if r = 0 then 0 else if r = p1.d then v1 else s.getX r)
    ∧ (s.me.only1 = true → ∀ pc d v, s.me.before = some (pc, d, v) →
      s.me.beforeWord = if pc = s.me.pc then (s.me.setX d v).x else s.me.x)
    ∧ (s.me.only1 = false → (∀ v0 v1, slotValue s p0 = some v0 → slotValue s p1 = some v1 → (p0.d = 0 ∨ p1.d = 0 ∨ p0.d ≠ p1.d) →
      ∃ t, exec (.pairWord p0 p1) s = .next t ∧ t = { s with me := { s.me with pc := s.me.pc + 8, x := t.me.x, before := none } }
        ∧ ∀ r, t.getX r = if r = 0 then 0 else if r = p0.d then v0 else if r = p1.d then v1 else s.getX r)
    ∧ (∀ a b, slotOp p0 = some a → slotOp p1 = some b → IssueOk s a → IssueOk s b → ¬ PerformsNothing s a →
      ∃ t : State, exec (.pairWord p0 p1) s = .next t ∧ Entered s t a (some b) (a.xs.map s.getX ++ b.xs.map s.getX) 0
        ∧ t.me.only1 = false)
    ∧ (∀ v0 b, slotValue s p0 = some v0 → slotOp p1 = some b → IssueOk s b → ¬ PerformsNothing s b →
      ∃ t u : State, exec (.pairWord p0 p1) s = .next t ∧ Entered s u b none (b.xs.map s.getX) 0
        ∧ t = { u with me := { u.me with x := t.me.x, only1 := false, before := none } }
        ∧ ∀ r, t.getX r = if r = p0.d ∧ r ≠ 0 then v0 else s.getX r))

/-- 09 R204, R205, R214, 08 R191, R192, 06 R128: the instructions that read a 64-byte block. sopen and fopen enter the window with their descriptor, or
are stream error 2 where it is not valid; cbkld carries its block, read once, into every lane once the words before it stand there and each has room,
and replaces the codebook once every earlier instruction that uses it has completed and holds no stores (04 R94); it waits before that; its block is
not on a remote page, and is aligned. -/
def Obligations.BlockReaders : Prop :=
  ∀ (s s1 : State) (n : BitVec 2) (xa : XReg) (off : Imm19) (b : BitVec 512),
    let ea := s.getX xa + off.signExtend 64
    let load := Instr.cbkld xa off
    (∀ p ∈ [(EOp.sopen n xa off, sdValid b, false), (.fopen n xa off, fdValid b, true)], IssueOk s p.1 → BlockGives s ea b s1 →
      (p.2.1 = true → ∃ t : State, exec p.1.instr s = .next t ∧ Entered s1 t p.1 none (p.1.xs.map s.getX) b ∧ t.me.only1 = s.me.only1)
      ∧ (p.2.1 = false → TrapsHandled s → ∃ t, exec p.1.instr s = .next t ∧ t.me.pc = s.me.tvec ∧ t.me.epc = s.me.pc
        ∧ t.me.ecause = 0x30C ∧ t.me.einfo = 2#12 ++ s.me.pc.setWidth 52
        ∧ t.me.estream = 1#1 ++ BitVec.ofBool p.2.2 ++ 0#28 ++ n ++ 0#32 ∧ t.me.x = s.me.x ∧ t.mem = s1.mem))
    ∧ (∀ (inLanes : Bool) (b : BitVec 512) (u : State),
      (s.me.cbk = some (b, inLanes) ∧ u = s) ∨ (s.me.cbk = none ∧ inLanes = false ∧ BlockGives s ea b u
        ∧ ∀ x pkg a, s.checkAccess .load ea 64 = .ok x → x.place ≠ .far pkg a) →
      let entered : Prop := inLanes = true ∨ (u.laneRoom = true ∧ (u.me.held = true ∨ ∀ e ∈ u.me.win, e.queued = true))
      let free := ∀ e ∈ u.me.win, (e.complete u.me = true ∧ e.held = []) ∨ ∀ op ∈ e.ops, usesCodebook op = false
      (entered → free → ∃ t, exec load s = .next t
        ∧ t = { u with me := { u.me with pc := u.me.pc + 8, codebook := t.me.codebook, cbk := none } }
        ∧ ∀ k, (hk : k < 16) → t.me.codebook[k] = b.extractLsb' (32 * k) 32)
      ∧ (entered → ¬ free → exec load s = .next { u with me := { u.me with cbk := some (b, true) } })
      ∧ (¬ entered → exec load s = .next { u with me := { u.me with cbk := some (b, false) } }))
    ∧ (TrapsHandled s → s.me.cbk = none →
      (∀ x pkg a, s.checkAccess .load ea 64 = .ok x → x.place = .far pkg a → Trapped s (exec load s) 0x08 2 ea)
      ∧ (ea.toNat % 64 ≠ 0 → Trapped s (exec load s) 0x06 (if s.peekRemote s.env ea then 2 else 0) ea))

/-- 09 R203 to R205, R213 to R222, 01 R21, 06 R121, R124, R128, R129, 07 R162, 10 R225 to R239, 20 R354: what a control form and every rendezvous
instruction do when they are performed as the one entry of a window: the lane event performs the form, RENDEZVOUS_DONE a reduction, scan, permute, slide,
compress or count once every lane has delivered, MATRIX_COMPLETE a matrix instruction. The entry leaves the window, a value it returns is on its way.
Then what a row of mma, mld or mst leaves, and the order of those rows. A poisoned word, an empty line and a port make it wait or trap: that is in LaneEvents. -/
def Obligations.WholeOperations : Prop :=
  (∀ (s : State) (e : Entry) (lane : Nat) (n : BitVec 2) (d xa : XReg) (off : Imm19),
    s.me.active = true → s.me.win = [e] → e.queued = true → e.op2 = none → e.map0 ≠ BitVec.allOnes 256 → e.held = [] → e.mq = false →
    e.idle = false →
    let st := s.me.stream n.toNat
    let left (streams : Vector Stream 4) (vals : List Value) : State :=
      { s with me := { s.me with win := [], streams := streams, vals := s.me.vals ++ vals } }
    let o := exec (.laneGroupExecute s.me.tid lane) s
    let moves (new : Nat → Option Stream) : Prop :=
      ∃ v, o = .next (left v []) ∧ ∀ j, (hj : j < 4) → v[j] = (new j).getD s.me.streams[j]
    let movesByRow (new : Nat → Option Stream) : Prop :=
      let row := s.farReads 0 .engine (s.me.formReads e.op e.desc)
      ∃ v m, o = .next { left v [] with
          mem := m, me := { (left v []).me with remote := s.me.remote.filter (fun q => !row.contains (q.pkg, q.addr, q.size)) } }
        ∧ m = { s.mem with l1 := m.l1, hostLines := m.hostLines, tlb := m.tlb } ∧ ∀ j, (hj : j < 4) → v[j] = (new j).getD s.me.streams[j]
    let answers (w : Word) : Prop := o = .next (left s.me.streams [⟨d, w⟩])
    (e.op = .sopen n xa off → moves (fun j => if j = n.toNat then
      some ⟨e.desc, true, false, false, decide (sdT e.desc = 0), 0, 0, 0, [], []⟩ else none))
    ∧ (e.op = .sadv n xa → st.opened = false → moves (fun _ => none))
    ∧ (e.op = .sadv n xa → st.opened = true → st.fib = false → moves (fun j =>
      let p := min (st.pos + (e.scal.getD 0 0).toNat) (sdT st.desc)
      if j = n.toNat then some { st with
        pos := p, ended := st.ended || decide (p = sdT st.desc), ahead := st.ahead.filter (fun a => p ≤ a.1) } else none))
    ∧ (e.op = .stend d n → answers (if st.opened = false ∨ st.pos = sdT st.desc then 1 else 0))
    ∧ (e.op = .sclose n → moves (fun j => if j = n.toNat then some Stream.closed else none))
    ∧ (∀ start len, e.op = .fopen n xa off → n.toNat % 2 = 0 → s.readRow 0 n.toNat e.desc (fdRow0 e.desc) = .ok (start, len) →
      movesByRow (fun j => if j = n.toNat then some ⟨e.desc, true, true, false, decide (fdRows e.desc = 0), 0, 0, 0, [start, start, len], []⟩
        else if j = n.toNat + 1 then some ⟨0, true, true, true, false, 0, 0, 0, [], []⟩ else none))
    ∧ (e.op = .fadv n → st.opened = false ∨ fdRows st.desc ≤ st.pos → moves (fun _ => none))
    ∧ (∀ start len, e.op = .fadv n → st.opened = true → st.pos < fdRows st.desc →
      s.readRow 0 n.toNat st.desc (fdRow0 st.desc + st.pos + 1) = .ok (start, len) →
      movesByRow (fun j => if j = n.toNat then
        some ⟨st.desc, true, true, false, decide (fdRows st.desc ≤ st.pos + 1), st.pos + 1, 0, 0, [st.rows.getD 0 0, start, len], []⟩ else none))
    ∧ (e.op = .ftend d n → answers (if st.opened = false then 7 else if fdRows st.desc ≤ st.pos then 4
        else BitVec.ofNat 64 ((if st.rows.getD 2 0 ≤ st.pe then 1 else 0) + (if st.rows.getD 2 0 ≤ st.po then 2 else 0))))
    ∧ (e.op = .fclose n → n.toNat % 2 = 0 → moves (fun j => if j = n.toNat ∨ j = n.toNat + 1 then some Stream.closed else none)))
  ∧ (∀ (s : State) (e : Entry) (d xb : XReg) (k kr : KReg) (ty : Ty) (a : VReg) (bit : Nat → Bool) (x : Nat → Nat),
    s.me.active = true → s.me.win = [e] → e.queued = true → e.op2 = none → e.map0 ≠ BitVec.allOnes 256 → e.held = [] → e.mq = false → e.idle = false →
    (∀ l, l < s.me.lanes → e.delivered.getLsbD l = true) → s.me.portsOf e.op = [] →
    let answers (w : Word) : Prop := ∃ t, exec (.rendezvousDone s.me.tid) s = .next t ∧ t = { s with
      me := { s.me with win := [], vals := s.me.vals ++ [⟨d, w⟩] }, power := t.power }
    ((∀ i, i < e.vl → s.me.kread k i = .ok (bit i)) →
      let l := (List.range e.vl).filter bit
      (e.op = .kpopc d k → answers (BitVec.ofNat 64 l.length))
      ∧ (e.op = .kfirst d k → l = [] → answers 0xFFFFFFFFFFFFFFFF)
      ∧ ∀ i r, e.op = .kfirst d k → l = i :: r → answers (BitVec.ofNat 64 i))
    ∧ (e.op = .vred .add ty kr d a xb → ty.fmt.isInt = true → ty.nat = true → s.me.port a = none →
      (∀ i, i < e.vl → s.me.kread kr i = .ok (bit i)) → (∀ i, i < e.vl → bit i = true → s.me.vread a ty.fmt.width i = .ok (x i)) →
      answers (BitVec.ofNat 64 (((e.scal.getD 0 0).toNat + (((List.range e.vl).filter bit).map x).sum) % 2 ^ ty.fmt.width))))
  ∧ (∀ (s : State) (e : Entry) (op : ROp) (ex : Bool) (ty : Ty) (m : Mask) (d : VReg) (a b : VReg) (xd xb : XReg) (k : KReg) (bit : Nat → Bool)
      (x y : Nat → Nat) (join : Nat → Nat → Nat × Flags),
    s.me.active = true → s.me.win = [e] → e.queued = true → e.op2 = none → e.map0 ≠ BitVec.allOnes 256 → e.held = [] → e.mq = false → e.idle = false →
    (∀ l, l < s.me.lanes → e.delivered.getLsbD l = true) → s.me.portsOf e.op = [] →
    let wd := e.vtype.width
    let n := ty.fmt.width
    let vlmax := e.vtype.vlmax s.me.lanes
    let seed := (e.scal.getD 0 0).toNat % 2 ^ n
    let amount := (e.scal.getD 0 0).toNat
    let o := exec (.rendezvousDone s.me.tid) s
    let answers (w : Word) (fl : Flags) : Prop := ∃ t, o = .next t
      ∧ t = { s with me := { s.me with win := [], vals := s.me.vals ++ [⟨xd, w⟩], flags := s.me.flags.or fl }, power := t.power }
    let off : Option Nat := if m.z ∨ e.vtype.mp then some 0 else none
    let tail : Option Nat := if e.vtype.tp then some 0 else none
    let leaves (new : Nat → Option Nat) (flags : Flags) : Prop := ∃ t, o = .next t
      ∧ t = { s with me := { s.me with win := [], v := t.me.v, flags := flags }, power := t.power }
      ∧ ∀ i, i < vlmax → t.me.vget d wd i = match new i with
        | some v => (if e.tag0 = Fmt.t6.code ∧ wd = 8 then v % 64 else v) % 2 ^ wd
        | none => s.me.vget d wd i
    let picked (src : Nat → Option (Option Nat)) : Prop :=
      (∀ i j, i < e.vl → bit i = true → src i = some (some j) → s.me.vread a wd j = .ok (x j)) →
      leaves (fun i => if i < e.vl then (if bit i then (match src i with
        | some (some j) => some (x j)
        | some none => some 0
        | none => none) else off) else tail) s.me.flags
    let masked (k : KReg) : Prop := ∀ i, i < e.vl → s.me.kread k i = .ok (bit i)
    let reads : Prop := ∀ i, i < e.vl → bit i = true → s.me.vread a n i = .ok (x i) ∧ x i < 2 ^ n
    (e.op = .vred op ty k xd a xb → Joins ty op (Mode.ofRm e.rm) e.fz join → masked k → reads →
      let both (p q : Nat × Flags) : Nat × Flags := ((join p.1 q.1).1, (p.2.or q.2).or (join p.1 q.1).2)
      (ty.fmt.isInt = true → ∃ w, ReturnedAs s.me.codebook ty ((((List.range e.vl).filter bit).foldl (fun v i => (join v (x i)).1) seed)) w Flags.none
        ∧ answers w Flags.none)
      ∧ (ty.fmt ∈ [Fmt.fp64, .fp32, .fp16, .bf16] →
        let element (i : Nat) : Nat × Flags := if i < e.vl ∧ bit i = true then (x i, Flags.none) else (identityOf ty.fmt op, Flags.none)
        let per := 256 / n
        let sum : Nat × Flags := match orderedSum both element (Nat.log2 per) s.me.lanes ((e.vl + per - 1) / per) with
          | some p => both p (seed, Flags.none)
          | none => (seed, Flags.none)
        ∃ w fl, ReturnedAs s.me.codebook ty sum.1 w fl ∧ answers w (sum.2.or fl)))
    ∧ (e.vl ≤ vlmax → masked m.k →
      (e.op = .vscan op ex ty m d a xb → n = wd → ty.fmt.isInt = true ∨ ty.fmt ∈ [Fmt.fp64, .fp32, .fp16, .bf16] →
        Joins ty op (Mode.ofRm e.rm) e.fz join → reads →
        let before := scanBefore join bit x seed
        leaves (fun i => if i < e.vl then (if bit i then some (if ex then before i else before (i + 1)) else off) else tail)
          (((List.range e.vl).filter bit).foldl (fun f i => f.or (join (before i) (x i)).2) s.me.flags))
      ∧ (e.op = .vperm m d a b → (∀ i, i < e.vl → bit i = true → s.me.vread b wd i = .ok (y i)) →
        picked (fun i => some (if y i < vlmax then some (y i) else none)))
      ∧ (e.op = .vslideUp m d a xb → picked (fun i => if amount ≤ i then some (some (i - amount)) else none))
      ∧ (e.op = .vslideDn m d a xb → picked (fun i => some (if i + amount < vlmax then some (i + amount) else none))))
    ∧ (e.vl ≤ vlmax → masked k → e.op = .vcompress k d a → (∀ i, i < e.vl → bit i = true → s.me.vread a wd i = .ok (x i)) →
      let l := (List.range e.vl).filter bit
      leaves (fun i => if i < l.length then some (x (l.getD i 0)) else tail) s.me.flags))
  ∧ (∀ (s u : State) (w : Work) (i : Nat) (mr : MReg) (pa pb : BitVec 4) (ser : Bool) (xa xb xc : XReg) (off : Imm19),
    let cols := shapeCols w.shape
    let address (j : Nat) : Word := w.scal 0 + off.signExtend 64 + BitVec.ofNat 64 i * w.scal 1 + BitVec.ofNat 64 (4 * j)
    let cell (j : Nat) : Nat := tilePart ((s.me.mreg mr).row i) j
    i < 32 → cols ≤ 32 → s.tileRow w i = .ok u →
    (w.op = .mma pa pb ser mr xa xb xc →
      let p := pa.toNat + 1
      let q := pb.toNat + 1
      let blocks := ((w.scal 2).extractLsb' 0 16).toNat / 32
      let row := ((w.scal 2).extractLsb' 16 5).toNat + i
      let col (j : Nat) := ((w.scal 2).extractLsb' 21 5).toNat + j
      let sa (b : Nat) := (w.scal 0).toNat + b * 128 * (p + 1)
      let sb (b : Nat) := (w.scal 1).toNat + b * 128 * (q + 1)
      ∃ (acc : Nat → Nat → Nat) (fl : Nat → Nat → Flags),
        (∀ j, j < cols → acc j 0 = cell j ∧ ∀ b, b < blocks → BlockAdds s.me.fz p q (planeOf (planeWord s (sa b) row) p)
          (planeOf (planeWord s (sb b) (col j)) q) (scaleByte s (sa b) row p) (scaleByte s (sb b) (col j) q) (acc j b) (acc j (b + 1)) (fl j b))
        ∧ TileRowIs s u mr i cols (fun j => acc j blocks)
        ∧ u = { s with me := { s.me with
            m := u.me.m
            flags := (List.range cols).foldl (fun f j => (List.range blocks).foldl (fun f b => f.or (fl j b)) f) s.me.flags } })
    ∧ (w.op = .mld mr xa xb off → ∃ v : Nat → Nat,
      (∀ j, j < cols → ∃ z, s.checkElem .load 0 .tile (address j) 4 = .ok z
        ∧ ((∃ h, z.place = .near h ∧ s.mem.isEmptyAt h 4 = false ∧ v j = s.mem.number h 4) ∨ ∃ c, z.place = .cap c ∧ v j = leNat (s.capBytes c 4)))
      ∧ TileRowIs s u mr i cols v
      ∧ u = { s with me := { s.me with m := u.me.m }, mem := { s.mem with l1 := u.mem.l1, hostLines := u.mem.hostLines, tlb := u.mem.tlb } })
    ∧ (w.op = .mst mr xa xb off → ∃ h : Nat → Nat,
      (∀ j, j < cols → ∃ z, s.checkElem .store 0 .tile (address j) 4 = .ok z ∧ z.place = .near (h j))
      ∧ (s.mem.wf = true → ∀ a, u.mem.byte a = byteAfter ((List.range cols).flatMap (fun j => wholeBytes (h j) (leBytes 4 (cell j)))) a (s.mem.byte a))
      ∧ u = { s with mem := u.mem } ∧ u.mem.empties = s.mem.empties))
  ∧ ∀ (s : State) (core : Nat) (c : CoreRec) (q : List Nat) (e : Entry) (rest : List Entry) (m : Mask) (ty : Ty) (k : KReg) (fill : Bool) (p : BitVec 4)
      (mr : MReg) (d : VReg) (er : EReg) (xa xb xc : XReg) (off : Imm19) (bit : Nat → Bool) (x scale : Nat → Nat),
    s.cores.find? (fun c => c.core == core) = some c → c.mq = s.me.tid :: q → c.engine = true → s.me.win = e :: rest → e.mq = true → s.me.active = true →
    e.op2 = none → e.held = [] → s.me.tileTag (e.work 0 false e.op) = none →
    let sm : State := { s with me := { s.me with rm := e.rm, fz := e.fz } }
    let w := e.work 0 false e.op
    let o := exec (.matrixComplete core) s
    let left (u t : State) : Prop := t = { u with
      me := { u.me with rm := s.me.rm, fz := s.me.fz, win := t.me.win }
      cores := s.cores.map (fun c => if c.core = core then { c with mq := c.mq.drop 1, engine := false } else c) }
        ∧ t.me.win = { e with vstart := t.me.win.head?.elim 0 Entry.vstart, map0 := BitVec.allOnes 256, map1 := BitVec.allOnes 256, mq := false } :: rest
    let planes := p.toNat + 1
    let row (j : Nat) := (e.scal.getD 1 0).toNat + j
    let base := (e.scal.getD 0 0).toNat
    (∀ u, e.op = .mld mr xa xb off ∨ e.op = .mst mr xa xb off → TileRows sm w (tileRows w) u → ∃ t : State, o = .next t.retire ∧ left u t)
    ∧ (s.me.portsOf e.op = [] → e.vl ≤ e.vtype.vlmax s.me.lanes → (∀ i, i < e.vl → s.me.kread (if e.op.isTile then 0 else e.op.mask.1) i = .ok (bit i)) →
      (e.op = .plunpk m p d xa xc → e.vtype.width = 32 → e.tag0 = Fmt.fp32.code →
        (∀ i, i < e.vl → bit i = true → SlabFull s (base + 128 * planes + row (i / 32)) 1
          ∧ (scaleByte s base (row (i / 32)) planes ≠ 255 → ∀ n, n < planes → SlabFull s (base + 128 * n + 4 * row (i / 32)) 4)) →
        ∃ (t : State) (v : Nat → Nat) (fl : Nat → Flags), o = .next t.retire
          ∧ left { sm with me := { sm.me with v := t.me.v, flags := ((List.range e.vl).filter bit).foldl (fun f i => f.or (fl i)) s.me.flags } } t
          ∧ (∀ i, i < e.vl → bit i = true →
            let b := scaleByte s base (row (i / 32)) planes
            let sig := planeOf (planeWord s base (row (i / 32))) planes (i % 32)
            (b = 255 → v i = fpQnan 8 23 ∧ fl i = onlyNv true)
            ∧ (b ≠ 255 → Gives 8 23 .rne e.fz (ratio (decide (sig < 0)) (sig.natAbs * 2 ^ (949 + b)) (2 ^ planes)) (v i) (fl i)))
          ∧ ∀ i, i < e.vtype.vlmax s.me.lanes → t.me.vget d 32 i = if i < e.vl then (if bit i then v i else if m.z ∨ e.vtype.mp then 0 else s.me.vget d 32 i)
              else if e.vtype.tp then 0 else s.me.vget d 32 i)
      ∧ (e.op = .plpack ty k fill p d xa er xc → (∀ i, i < e.vl → bit i = true → s.me.vread d ty.fmt.width i = .ok (x i) ∧ x i < 2 ^ ty.fmt.width) →
        ty.fmt.isInt = false → (∀ j, 32 * j < e.vl → s.me.eread er j = .ok (scale j)) →
        let blocks := (e.vl + 31) / 32
        ∃ (t : State) (sig : Nat → Int) (fl : Nat → Flags), o = .next t.retire
          ∧ left { sm with me := { sm.me with flags := (List.range (32 * blocks)).foldl (fun f i => f.or (fl i)) s.me.flags }, mem := t.mem, power := t.power } t
          ∧ (∀ i, i < 32 * blocks →
            (i < e.vl ∧ bit i = true → Quantised planes (scale (i / 32))
              ((numOf s.me.codebook ty.fmt (x i)).flushed (ebOf ty.fmt) (fbOf ty.fmt) e.fz) (sig i) (fl i))
            ∧ (¬ (i < e.vl ∧ bit i = true) → sig i = 0 ∧ fl i = Flags.none))
          ∧ (s.mem.wf = true →
            let word (j n : Nat) : Nat := ((List.range 32).map (fun k => if (sig (32 * j + k) % 2 ^ planes).toNat.testBit n then 2 ^ k else 0)).sum
            let bytes := (List.range blocks).flatMap (fun j =>
              (List.range planes).flatMap (fun n => wholeBytes (slabAt s base + 128 * n + 4 * row j) (leBytes 4 (word j n)))
                ++ wholeBytes (slabAt s base + 128 * planes + row j) [BitVec.ofNat 8 (scale j)])
            (∀ a, t.mem.byte a = byteAfter bytes a (s.mem.byte a))
            ∧ (fill = true → ∀ b ∈ bytes, isScratch (128 * (b.addr / 128)) = true → b.addr / 128 ∉ t.mem.empties) ∧ (fill = false → t.mem.empties = s.mem.empties))))

/-- 04 R105 to R107: vsave. The image is the header, the dirty registers and the window entries; xD receives its size; the window is empty
afterwards, no window is held, every GAM bit is 1, and the values that the entries return are still owed (R101), with their entries of val but for one that a
trap has freed (03 R91). A part that cannot be written is a trap; vsave waits for its window and st. -/
def Obligations.ContextSave : Prop :=
  (∀ (s : State) (d xa : XReg),
    let base := s.getX xa
    let i := Instr.vsave d xa
    let ready := (s.me.win = [] ∨ s.me.held = true) ∧ s.me.st = []
    let size := 1024 + ((s.me.v.toList.filter (fun f => f.dirty)).map (fun f => 32 * f.wx)).sum
      + 2048 * (s.me.k.toList.filter (fun f => f.dirty)).length + 4096 * (s.me.m.toList.filter (fun f => f.dirty)).length
      + 256 * (s.me.e.toList.filter (fun f => f.dirty)).length + 128 * s.me.win.length
    8 * s.me.image.length = size
    ∧ imageNum s.me.image 0 8 = 0x53430001 ∧ imageNum s.me.image 8 4 = size % 2 ^ 32 ∧ imageNum s.me.image 0x0C 1 = s.me.lanes
    ∧ imageNum s.me.image 0x0D 1 = s.me.win.length % 256 ∧ imageNum s.me.image 0x10 8 = s.me.vl % 2 ^ 64
    ∧ imageNum s.me.image 0x18 8 = s.me.vtype.word.toNat ∧ imageNum s.me.image 0x20 8 = s.me.vstart.toNat
    ∧ imageNum s.me.image 0x28 8 = s.me.rows.toNat + 256 * s.me.cols.toNat
    ∧ (s.me.priv = .sup → ready → base.toNat % 256 = 0 →
      (∀ s', s.writeImage base 356 s.me.image = (s', none) →
        Answers s { s' with me := { s.me with
            win := [], held := false, owed := s.me.owed ++ s.me.win.filterMap (fun e => e.ret.map (fun r => (r, e.reserved)))
            v := s.me.v.map (fun f => { f with gam := BitVec.allOnes 32 }) } } (exec i s) (s.me.pc + 8) d (BitVec.ofNat 64 size))
      ∧ (∀ s' b va, s.writeImage base 356 s.me.image = (s', some (b, va)) → TrapsHandled s →
        s' = { s with mem := s'.mem } ∧ Trapped s' (exec i s) b.code b.detail va))
    ∧ (s.me.priv = .sup → ready → base.toNat % 256 ≠ 0 → TrapsHandled s →
        Trapped s (exec i s) 0x06 (1 + if s.peekRemote s.env base then 2 else 0) base)
    ∧ (s.me.priv = .sup → ¬ ready → exec i s = .next s)
    ∧ (s.me.priv = .job → TrapsHandled s → Trapped s (exec i s) 0x02 0 0))
  ∧ ∀ (s : State) (h : Nat) (ws : Image), s.mem.wf = true → Stored s (s.putWords h ws) h (ws.flatMap (fun p => leBytes 8 p.1.toNat))

/-- 04 R105, R108, R94: vrest. Its checks stand in the order poison, MAGIC and SIZE, entries, fit; then the fields of the header and the
registers of the image are restored, absent registers hold their creation value, and the window of the image is held. That vrest goes on over a window that is
held, and that an NWIN above 176 fails the check of SIZE, are the model's choices (log 36). -/
def Obligations.ContextRestore : Prop :=
  ∀ (s : State) (xa : XReg),
    let base := s.getX xa
    let i := Instr.vrest xa
    let ready := (s.me.win = [] ∨ s.me.held = true) ∧ s.me.st = []
    (s.me.priv = .sup → ready → base.toNat % 256 = 0 → ∀ hdr, s.readImage base 1024 4 = .words hdr →
      (∀ va, (firstPoison base 0 128 hdr).or (s.entryPoison base hdr) = some va → TrapsHandled s → Trapped s (exec i s) 0x09 0 va)
      ∧ ((firstPoison base 0 128 hdr).or (s.entryPoison base hdr) = none →
        (imgValid hdr = false → TrapsHandled s → Trapped s (exec i s) 0x12 1 base)
        ∧ (imgValid hdr = true → ∀ ws, s.readImage base (imgSize hdr) 356 = .words ws →
          (imgEntries ws = none → TrapsHandled s → Trapped s (exec i s) 0x12 3 base)
          ∧ (∀ es, imgEntries ws = some es →
            (imgFits ws es s.me.lanes = false → TrapsHandled s → Trapped s (exec i s) 0x12 2 base)
            ∧ (imgFits ws es s.me.lanes = true → (∀ n, n < 4 → (imageNum ws (0x108 + 64 * n) 8).testBit 32 = false) →
              ∃ t, exec i s = .next t ∧ t = { s with me := t.me } ∧ t.me.pc = s.me.pc + 8 ∧ t.me.x = s.me.x
                ∧ t.me.held = !es.isEmpty ∧ t.me.win.map (fun e : Entry => (e.op, e.op2, e.pc, e.scal, e.vl))
                  = es.map (fun e : Entry => (e.op, e.op2, e.pc, e.scal, e.vl))
                ∧ t.me.vl = imageNum ws 0x10 8 ∧ t.me.vstart = BitVec.ofNat 64 (imageNum ws 0x20 8)
                ∧ t.me.rows = BitVec.ofNat 6 (imageNum ws 0x28 1) ∧ t.me.cols = BitVec.ofNat 6 (imageNum ws 0x29 1)
                ∧ (∀ r, (hr : r < 32) → t.me.v[r].dirty = (imageNum ws 0x30 4).testBit r
                  ∧ t.me.v[r].gam = BitVec.ofNat 32 (imageNum ws (0x40 + 4 * r) 4)
                  ∧ (t.me.v[r].dirty = true → t.me.v[r].wx = imageNum ws (0xC0 + r) 1)
                  ∧ (t.me.v[r].dirty = false → t.me.v[r].groups = Vector.replicate 32 0 ∧ t.me.v[r].tag = 0 ∧ t.me.v[r].wx = 0))
                ∧ (∀ r, (hr : r < 8) → t.me.k[r].dirty = (imageNum ws 0x34 1).testBit r ∧ (t.me.k[r].dirty = false → t.me.k[r].bits = 0))
                ∧ t.me.streams.toList.all (fun st => !st.opened) = true)))))
    ∧ (s.me.priv = .sup → ready → base.toNat % 256 ≠ 0 → TrapsHandled s →
        Trapped s (exec i s) 0x06 (if s.peekRemote s.env base then 2 else 0) base)
    ∧ (s.me.priv = .sup → ¬ ready → exec i s = .next s)
    ∧ (s.me.priv = .job → TrapsHandled s → Trapped s (exec i s) 0x02 0 0)

/-- 21 R386, R387, R388, R392: bcnopen, beacon and bcnclose: refusals, the packet that leaves, the wait, and the answer once it has come. The model's choices:
a bcnclose of a channel whose close has been sent already waits for that close and answers 3 once it is gone (log 27); earlier writes that stand in a held
window count as left (log 17). -/
def Obligations.BeaconInstructions : Prop :=
  ∀ (s : State) (d xa xb : XReg) (n : BitVec 4) (off : BitVec 15),
    let p := (s.getX xa).toNat
    let mine := s.fab.senders.filter (fun c => c.tid == s.me.tid)
    let ea := s.getX xa + off.signExtend 64
    let channel := s.fab.senders.find? (fun c => c.tid == s.me.tid && c.slot == n.toNat && c.opened)
    let refused (reason : Nat) : Word := BitVec.ofNat 64 (2 ^ 62 + reason * 2 ^ 16)
    let iO := Instr.bcnopen d xa
    let iB := Instr.beacon d xa xb n off
    let iC := Instr.bcnclose d n
    let badPkg := 2 ^ 12 ≤ p ∨ p = s.pkgnum.toNat ∨ routeV (s.route p) = false
    let change (chan : Nat) (f : Sender → Sender) := s.fab.senders.map (fun y => if y.chan = chan then f y else y)
    (s.me.ask = .none →
      (badPkg → Wrote s (exec iO s) d (refused 1))
      ∧ (¬ badPkg → 16 ≤ mine.length → Wrote s (exec iO s) d (refused 2))
      ∧ (¬ badPkg → mine.length < 16 → (∃ c ∈ mine, c.pkg = p) → Wrote s (exec iO s) d (refused 3))
      ∧ (¬ badPkg → mine.length < 16 → (∀ c ∈ mine, c.pkg ≠ p) → s.freeChan = none → Wrote s (exec iO s) d (refused 4))
      ∧ (∀ chan, ¬ badPkg → mine.length < 16 → (∀ c ∈ mine, c.pkg ≠ p) → s.freeChan = some chan →
        (∀ c ∈ s.fab.senders, c.chan ≠ chan) ∧ ∃ slot,
          slot < 16 ∧ (∀ c ∈ mine, c.slot ≠ slot) ∧ (∀ k, k < slot → ∃ c ∈ mine, c.slot = k)
          ∧ exec iO s = .next { s.sendOrLose p (.openReq chan) with
              me := { s.me with ask := .openChan chan s.time }
              fab := { (s.sendOrLose p (.openReq chan)).fab with
                nextChan := (chan + 1) % 65536
                senders := s.fab.senders ++ [⟨chan, s.me.tid, slot, p, 0, false, [], none, false⟩] } })
      ∧ (channel = none → Wrote s (exec iC s) d 3)
      ∧ (∀ c t, channel = some c → c.closing = some t → exec iC s = .next { s with me := { s.me with ask := .closeChan c.chan t } })
      ∧ (∀ c, channel = some c → c.closing = none → s.leftFor c.pkg = false ∨ c.flags ≠ [] → exec iC s = .next s)
      ∧ (∀ c, channel = some c → c.closing = none → s.leftFor c.pkg = true → c.flags = [] →
        exec iC s = .next { s.sendOrLose c.pkg (.close c.chan c.sent s.me.bto.toNat) with
          me := { s.me with ask := .closeChan c.chan s.time }
          fab := { (s.sendOrLose c.pkg (.close c.chan c.sent s.me.bto.toNat)).fab with
            senders := change c.chan (fun y => { y with closing := some s.time }) } }))
    ∧ (∀ st, s.me.ask = .answered st → ∀ i ∈ [iO, iC],
        Answers s { s with me := { s.me with ask := .none } } (exec i s) (s.me.pc + 8) d st)
    ∧ (∀ chan sent, s.me.ask = .openChan chan sent → exec iO s = .next s)
    ∧ (∀ chan sent, s.me.ask = .closeChan chan sent → exec iC s = .next s)
    ∧ (channel = none → Wrote s (exec iB s) d (refused 1))
    ∧ (∀ c, channel = some c →
      (ea.toNat % 16 ≠ 0 → TrapsHandled s → Trapped s (exec iB s) 0x06 (1 + if s.peekRemote s.env ea then 2 else 0) ea)
      ∧ (∀ bad, ea.toNat % 16 = 0 → s.translate s.env .store none ea = .error bad → TrapsHandled s →
          Trapped s (exec iB s) bad.code bad.detail ea)
      ∧ (∀ x, ea.toNat % 16 = 0 → s.translate s.env .store none ea = .ok x →
        ((∀ pkg addr, x.place ≠ .far pkg addr) → TrapsHandled s → Trapped s (exec iB s) 0x08 1 ea)
        ∧ (∀ pkg addr, x.place = .far pkg addr → routeV (s.route pkg) = false → TrapsHandled s → Trapped s (exec iB s) 0x08 3 ea)
        ∧ (∀ pkg addr, x.place = .far pkg addr → routeV (s.route pkg) = true →
          (pkg ≠ c.pkg → Wrote s (exec iB s) d (refused 2))
          ∧ (pkg = c.pkg → (s.leftFor pkg = false ∨ 4 ≤ c.flags.length) → exec iB s = .next s)
          ∧ (pkg = c.pkg → s.leftFor pkg = true → c.flags.length < 4 →
            let sent := s.sendOrLose pkg (.flag c.chan addr (s.getX xb) c.sent s.me.bto.toNat)
            Answers s { sent with fab := { sent.fab with
                senders := change c.chan (fun y => { y with flags := y.flags ++ [(c.sent, s.time)] }) } }
              (exec iB s) (s.me.pc + 8) d (c.sent.setWidth 64)))))

/-- 21 R394 to R397, R378: rred, rwset and fmap. A reduction at a home of the package stores its result, and one that finds no window is dropped and
counted in RDROP; one for another package leaves as a packet; the window region faults. rwset and fmap are for a supervisor. The model's choices (log 26): an
operand of rwset that is not of its form is reason 1, before any other; windows that are disabled neither overlap nor count; a poisoned home drops the
reduction without a count; fmap keeps the bits of a route that R378 names. -/
def Obligations.ReductionsAndRoutes : Prop :=
  (∀ (s : State) (op : ROp) (ty : RTy) (xa xb : XReg) (off : Imm19) (x : Xlat) (h : Nat),
    let ea := s.getX xa + off.signExtend 64
    let n := (Machine.RTy.bytes ty)
    let w := 8 * n
    let o := BitVec.ofNat w (s.mem.number h n)
    let v := (s.getX xb).setWidth w
    let less (a b : BitVec w) : Bool := if ty = .i32 ∨ ty = .i64 then a.slt b else a.ult b
    let i := Instr.rred op ty xa xb off
    (∀ bad, s.checkAccess .atomic ea n = .error bad → TrapsHandled s → Trapped s (exec i s) bad.code bad.detail ea)
    ∧ (s.checkAccess .atomic ea n = .ok x → 0x000FFF0000000000 ≤ ea.toNat → TrapsHandled s → Trapped s (exec i s) 0x08 1 ea)
    ∧ (∀ pkg a, s.checkAccess .atomic ea n = .ok x → ea.toNat < 0x000FFF0000000000 → x.place = .far pkg a →
      exec i s = .next (s.sendMine pkg (fun c => .red s.me.tid s.me.ep c a op ty (s.getX xb))).bump)
    ∧ (s.checkAccess .atomic ea n = .ok x → ea.toNat < 0x000FFF0000000000 → x.place = .near h →
      (s.spot h ≠ .hbm ∨ s.windowFor h ty = false → exec i s = .next { s with
        me := { s.me with pc := s.me.pc + 8 }
        fab := { s.fab with rdrop := if s.fab.rdrop = BitVec.allOnes 32 then s.fab.rdrop else s.fab.rdrop + 1 } })
      ∧ (s.spot h = .hbm → s.windowFor h ty = true → s.mem.poisonAt h n = none → s.mem.wf = true → ∃ t l, exec i s = .next t
        ∧ t = { s with me := { s.me with pc := s.me.pc + 8 }, mem := t.mem } ∧ Stored s t h l ∧ l.length = n
        ∧ (ty.isFloat = false → l = leBytes n (match op with
          | .add => o + v
          | .min => if less v o then v else o
          | .max => if less o v then v else o
          | .and => o &&& v
          | .or => o ||| v
          | .xor => o ^^^ v).toNat))
      ∧ (s.spot h = .hbm → s.windowFor h ty = true → s.mem.poisonAt h n ≠ none → Skipped s (exec i s))))
  ∧ (∀ (s : State) (d xa xb : XReg) (n : BitVec 4),
    let base := (s.getX xa).toNat
    let b := s.getX xb
    let size := (b.extractLsb' 0 32).toNat
    let others := ((List.range 16).zip s.fab.windows.toList).filter (fun p => p.1 != n.toNat && p.2.en)
    let formed := base % 4096 = 0 ∧ size % 4096 = 0 ∧ b.extractLsb' 36 28 = 0 ∧ s.allHbm base size = true
    let clash := b.getLsbD 35 = true ∧ ((∃ p ∈ others, base < p.2.base + p.2.size ∧ p.2.base < base + size)
      ∨ 8388608 < (others.map (fun p => p.2.size)).sum + size)
    let i := Instr.rwset d n xa xb
    s.me.priv = .sup → s.fab.inbox = [] →
      (¬ formed ∨ clash → Wrote s (exec i s) d 1)
      ∧ (formed → ¬ clash → b.extractLsb' 32 3 = 7 → Wrote s (exec i s) d 2)
      ∧ (formed → ¬ clash → ∀ ty, rtyOf (b.extractLsb' 32 3).toNat = some ty → ∃ t, exec i s = .next t
        ∧ t = { s with me := { s.me with pc := s.me.pc + 8, x := t.me.x }, mem := { s.mem with sums := t.mem.sums },
                       fab := { s.fab with windows := s.fab.windows.set n.toNat ⟨base, size, ty, b.getLsbD 35⟩ } }
        ∧ (∀ r, t.getX r = if r = d ∧ r ≠ 0 then 0 else s.getX r)
        ∧ ∀ e ∈ t.mem.sums, ¬ (base ≤ e.addr ∧ e.addr < base + size)))
  ∧ ∀ (s : State) (d xa xb : XReg) (n : BitVec 4),
    let k := (s.getX xa).toNat
    let w := s.getX xb
    (s.me.priv = .sup → ∃ t, exec (.fmap xa xb) s = .next t ∧ t = { s with me := { s.me with pc := s.me.pc + 8 }, fab := t.fab }
      ∧ (k < 0x1000 → t.fab = { s.fab with routes := t.fab.routes } ∧ t.route k = w &&& 0xC00000000000FFFF
          ∧ ∀ j, j ≠ k → t.route j = s.route j)
      ∧ (k = 0x1000 → t.fab = { s.fab with prefixes := w })
      ∧ (k = 0x1001 → t.fab = if w.toNat < 2 ^ 16 ∧ (w.extractLsb' 0 4).toNat ≤ 3 ∧ (w.extractLsb' 4 4).toNat ≤ 3 then
          { s.fab with podcfg := w } else s.fab)
      ∧ (0x1001 < k → t.fab = s.fab))
    ∧ (s.me.priv = .job → TrapsHandled s → Trapped s (exec (.fmap xa xb) s) 0x02 0 0 ∧ Trapped s (exec (.rwset d n xa xb) s) 0x02 0 0)

/-- 14 R271, R272, 03 R90: a read of CEGO starts the copy that the shadows describe or answers why not; csrw of it only goes on. -/
def Obligations.CopyReads : Prop :=
  ∀ (s : State) (d xa : XReg),
    let cl := s.cluster s.me.cluster
    let i := Instr.cegoRead d
    (∀ n, CopyBad s n → (∀ m, m < n → ¬ CopyBad s m) → Wrote s (exec i s) d (BitVec.ofNat 64 (2 ^ 62 + n * 2 ^ 16)))
    ∧ ((∀ n, ¬ CopyBad s n) → 64 ≤ cl.copies.length → Wrote s (exec i s) d (BitVec.ofNat 64 (2 ^ 63)))
    ∧ ((∀ n, ¬ CopyBad s n) → cl.copies.length < 64 → ∃ (c : Copy) (em : List Nat),
      Answers s { withClusterBy s s.me.cluster (fun k => { k with copies := k.copies ++ [c], nextCopy := k.nextCopy + 1 }) with
          mem := { s.mem with empties := em } }
        (exec i s) (s.me.pc + 8) d (BitVec.ofNat 64 (cl.nextCopy % 2 ^ 16))
      ∧ (∀ l, l ∈ em ↔ l ∈ s.mem.empties ∨ l ∈ s.copyHomes c c.lines)
      ∧ c.id = cl.nextCopy ∧ c.tid = s.me.tid ∧ c.lid = s.me.lid ∧ c.root = s.me.root ∧ c.priv = s.me.priv ∧ c.core = s.me.core
      ∧ c.src = s.me.ce[0] ∧ c.dst = s.me.ce[1] ∧ c.len = s.me.ce[2].toNat ∧ c.rows = s.me.ce[4].toNat
      ∧ c.sstr = s.me.ce[3].extractLsb' 0 32 ∧ c.dstr = s.me.ce[3].extractLsb' 32 32
      ∧ c.gang = s.me.ce[5].getLsbD 0 ∧ c.gtag = s.me.ce[5].extractLsb' 1 4 ∧ c.greg = s.me.ce[5].extractLsb' 5 5
      ∧ c.flag = s.me.ce[6] ∧ c.fval = s.me.ce[7] ∧ c.running = false ∧ c.landed = [] ∧ c.remote = [] ∧ c.data = none ∧ c.parked = [] ∧ c.failed = none
      ∧ (c.gang = false → c.members = [])
      ∧ (c.gang = true → ∀ n, n ∈ c.members ↔ ∃ t ∈ s.me :: s.others, t.tid = n ∧ t.crew = s.me.crew ∧ t.status ≠ .retired))
    ∧ (∀ j ∈ [Instr.csrr d 0x208, .csrrw d 0x208 xa, .csrs d 0x208 xa, .csrc d 0x208 xa], exec j s = exec i s)
    ∧ Skipped s (exec (.csrw 0x208 xa) s)

/-- 14 R273, R275, R276, 04 R111, R112, 15 R294: what the copy engine does with a queued copy: it starts, a destination line lands, it completes, it stops at a
fault and writes its fault word, and a member of a gang is served; a paused engine starts no line but takes up what other packages have been asked for. Which
byte is the first that fails is Machine.State.copyFault. The model's choices (log 24): a copy that faults spoils its lines and counts at once, and writes its
fault words in their turn; the data of a gang are fetched once for all its members. -/
def Obligations.CopyEngine : Prop :=
  (∀ (s : State) (cl : Nat),
    let k := s.cluster cl
    let busy := (k.copies.filter (fun x => x.running)).length
    let i := Instr.copyStart cl
    (k.pause = true ∨ 8 ≤ busy ∨ (∀ c ∈ s.clusters, c.id = cl → ∀ x ∈ c.copies, x.running = true) → exec i s = .next s)
    ∧ (k.pause = false → busy < 8 → exec i s = .next (withClusterBy s cl (fun c =>
        { c with copies := firstBy (fun x => !x.running) (fun x => [{ x with running := true }]) c.copies }))))
  ∧ ∀ (s : State) (cl id : Nat) (c : Copy), s.copyOf cl id = some c →
    let turn := c.flag = 0 ∨ ∀ x ∈ (s.cluster cl).copies.takeWhile (fun x => x.id != c.id), x.tid = c.tid → x.flag = 0
    let may (vas : List Word) : Prop := (s.cluster cl).pause = false ∨ (s.farSources c vas ≠ [] ∧ ∀ q ∈ s.farSources c vas, c.asked q = true)
    let served := if c.gang then c.members = [] ∧ c.data ≠ none else ∀ l ∈ c.lines, l ∈ c.landed
    (c.running = true → served → c.failed = none → turn → ∃ t, exec (.copyComplete cl id) s = .next t
      ∧ t = { copyGone s cl id with mem := t.mem } ∧ FlagWritten s t c.env c.flag c.fval 0)
    ∧ (c.running = false ∨ ¬ served ∨ c.failed ≠ none ∨ ¬ turn → exec (.copyComplete cl id) s = .next s)
    ∧ (∀ f, c.running = true → c.failed = none → s.copyFault cl c = some f → ∃ m, LinesSpoilt s m c
      ∧ let counted := s.launches.map (fun l =>
          if l.lid = c.lid ∧ l.live = true then l.addFault f.code 1 c.tid ((f.addr.extractLsb' 0 52).setWidth 64) else l)
        ((c.gang = true ∧ c.members ≠ []) ∨ ¬ turn → exec (.copyFault cl id) s = .next { withCopyBy s cl id (fun x =>
            { x with failed := some f.word, data := if c.gang then some (List.replicate c.len (0, true)) else none,
                     parked := if c.gang then s.parkedOf c else [] }) with
          mem := m, launches := counted })
        ∧ (c.gang = false ∨ c.members = [] → turn → ∃ t, exec (.copyFault cl id) s = .next t
          ∧ t = { copyGone s cl id with mem := t.mem, launches := counted } ∧ FlagWritten { s with mem := m } t c.env c.flag (~~~c.fval) f.word))
    ∧ (∀ w, c.failed = some w →
      ((c.gang = true ∧ c.members ≠ []) ∨ ¬ turn → exec (.copyFault cl id) s = .next s)
      ∧ (c.gang = false ∨ c.members = [] → turn → ∃ t, exec (.copyFault cl id) s = .next t
        ∧ t = { copyGone s cl id with mem := t.mem } ∧ FlagWritten s t c.env c.flag (~~~c.fval) w))
    ∧ (c.failed = none → c.running = false ∨ s.copyFault cl c = none → exec (.copyFault cl id) s = .next s)
    ∧ (∀ (line : Nat) (b : Nat → Byte) (bad : Nat → Bool) (h : Nat → Nat),
      let bs := c.bytesOf line
      (c.running = false ∨ c.gang = true ∨ c.failed ≠ none ∨ ¬ may (c.sourcesOf line) ∨ line ∉ c.lines ∨ line ∈ c.landed →
        exec (.copyLineLand cl id line) s = .next s)
      ∧ (c.running = true → c.gang = false → c.failed = none → may (c.sourcesOf line) → line ∈ c.lines → line ∉ c.landed →
      (∀ n p, bs[n]? = some p → s.copySrc c n p.2.1 = .byte (b n) (bad n)
        ∧ ∃ x, s.engineXlat c.env .store p.2.2 = .ok x ∧ x.place = .near (h n)) →
      ∃ t, exec (.copyLineLand cl id line) s = .next t
        ∧ t = { withCopyBy s cl id (fun x => { x with landed := x.landed ++ [line] }) with mem := t.mem, fresh := s.fresh + bs.length }
        ∧ (s.mem.wf = true → (∀ n, n < bs.length → (∀ m, n < m → m < bs.length → h m ≠ h n) → t.mem.byte (h n) = b n)
          ∧ ∀ a, (∀ n, n < bs.length → h n ≠ a) → t.mem.byte a = s.mem.byte a)
        ∧ (∀ n, n < bs.length → bad n = true → h n / 8 ∈ t.mem.poison)
        ∧ ∀ n, n < bs.length → isScratch (h n) = true → h n / 128 ∉ t.mem.empties))
    ∧ ∀ (tid : Nat) (data : List (Byte × Bool)), c.running = true → c.gang = true → c.data ≠ none ∨ may c.gangSources → tid ∈ c.members →
      (c.data = some data ∨ (c.data = none ∧ s.gangBytes c = some data)) →
      let i := Instr.gangDelivery cl id tid
      let s1 := if c.data.isSome then s else s.holdSources c.env c.gangSources
      let parked := if c.data.isSome then c.parked else s.parkedOf c
      let given := withCopyBy s1 cl id (fun x => { x with data := some data, parked := parked, members := x.members.erase tid })
      let keeps := exec i s = .next (withCopyBy s1 cl id (fun x => { x with data := some data, parked := parked }))
      let replayed := parked.contains tid
      (s.thread tid = none → exec i s = .next given)
      ∧ (∀ u, s.thread tid = some u →
        (u.status = .retired ∨ u.crew ≠ c.crew → exec i s = .next given)
        ∧ (u.crew = c.crew → u.status ≠ .retired → u.status ≠ .running → u.status ≠ .waiting → keeps)
        ∧ (u.crew = c.crew → u.status = .running ∨ u.status = .waiting →
          ({ s with me := u } : State).gangReady replayed c (data.length / 32) = false → keeps)
        ∧ (u = s.me → u.crew = c.crew → u.status = .running ∨ u.status = .waiting → s.gangReady replayed c (data.length / 32) = true →
          ∃ t : State, exec i s = .next t.retire
          ∧ t = { given with me := { s.me with v := t.me.v, win := t.me.win } }
          ∧ ∀ g, g < data.length / 32 → g < 4 * s.me.lanes →
            (t.me.vreg c.greg.toNat).groupAt g =
              if s.me.armed replayed c.greg g = none then (s.me.vreg c.greg.toNat).groupAt g
              else BitVec.ofNat 256 (leNat (((data.drop (32 * g)).take 32).map (·.1)))))

/-- 14 R277 to R281: welt reads its block and queues it, or answers why not. The unit takes the headers of its block, performs a row
(Machine.State.weltRow, the loops of R279 and R280), after which the lines it writes no more are full (Machine.State.weltOpen: log 37), writes the
record of a block that is done, and that of one that stops. Lines of the host window that it reads are held (20 R354). The model's choices (log 25): a row is
performed whole, in one event, and the lines that a block wrote become full also where it stops. -/
def Obligations.WeltUnit : Prop :=
  (∀ (s : State) (d xa : XReg) (off : Imm19),
      let ea := s.getX xa + off.signExtend 64
      let i := Instr.welt d xa off
      let queue := (s.cluster s.me.cluster).welts
      (∀ bad, s.checkAccess .load ea 64 = .error bad → TrapsHandled s → Trapped s (exec i s) bad.code bad.detail ea)
      ∧ ∀ b s1, BlockGives s ea b s1 →
        let answers (r : Word) := Answers s s1 (exec i s) (s.me.pc + 8) d r
        let flag := b.extractLsb' 448 64
        let flagOk := flag.toNat % 16 = 0 ∧ 0x000FFF0000000000 ≤ flag.toNat
          ∧ ∃ x h, s.engineXlat ⟨s.me.core, 0xFF, s.me.root, s.me.priv⟩ .store flag = .ok x ∧ x.place = .near h ∧ isScratch h = true
        (¬ WeltFieldsOk b → answers 0x4000000000070000)
        ∧ (WeltFieldsOk b → ¬ flagOk → answers 0x4000000000080000)
        ∧ (WeltFieldsOk b → flagOk → 16 ≤ queue.length → answers 0x8000000000000000)
        ∧ (WeltFieldsOk b → flagOk → queue.length < 16 → Answers s
          (withClusterBy s1 s.me.cluster (fun c => { c with welts := c.welts ++
            [⟨s.me.tid, s.me.lid, s.me.root, s.me.priv, s.me.core, b, false, 0, 0, 0, []⟩] })) (exec i s) (s.me.pc + 8) d 0))
  ∧ ((∀ (s : State) (cl : Nat), (s.cluster cl).welts = [] →
      ∀ i ∈ [Instr.weltBlockStart cl, .weltMergeRow cl, .weltCompressRow cl, .weltComplete cl, .weltFault cl], exec i s = .next s)
    ∧ ∀ (s : State) (cl : Nat) (w : WeltBlock), WeltHead s cl w →
      let rows := (w.block.extractLsb' 64 32).toNat
      let row := (w.block.extractLsb' 32 32).toNat + w.rowsDone
      let fval := w.block.extractLsb' 96 32
      let compress := decide (w.block.extractLsb' 0 2 = 1)
      let next (f : WeltBlock → WeltBlock) (s : State) := withClusterBy s cl (fun c => { c with welts := f w :: c.welts.tail })
      (∀ a b, w.started = false → EngineReads s 1 w.env (w.block.extractLsb' 128 64) 32 a → WeltHeadOk compress (BitVec.ofNat 256 a) →
        (compress = true → ∃ hl, exec (.weltBlockStart cl) s = .next (next (fun w => { w with started := true, headA := BitVec.ofNat 256 a })
          { s with mem := { s.mem with hostLines := hl } }))
        ∧ (compress = false → EngineReads s 1 w.env (w.block.extractLsb' 192 64) 32 b → WeltHeadOk false (BitVec.ofNat 256 b) →
          ∃ hl, exec (.weltBlockStart cl) s =
            .next (next (fun w => { w with started := true, headA := BitVec.ofNat 256 a, headB := BitVec.ofNat 256 b })
              { s with mem := { s.mem with hostLines := hl } })))
      ∧ (w.started = true → w.rowsDone < rows → (s.weltRow w).stop = none →
        let r := s.weltRow w
        let after := { w with rowsDone := w.rowsDone + 1, lines := natInsertAll r.lines w.lines }
        (∃ hl, exec (if compress then .weltCompressRow cl else .weltMergeRow cl) s = .next (next (fun _ =>
            { after with lines := after.lines.filter (fun l => s.weltOpen after l) })
            { r.s with mem := { r.s.mem with
                hostLines := hl, empties := r.s.mem.empties.filter (fun l => decide (l ∉ after.lines ∨ s.weltOpen after l = true)) } }))
        ∧ exec (if compress then .weltMergeRow cl else .weltCompressRow cl) s = .next s)
      ∧ (∀ p q h, compress = false → w.started = true → w.rowsDone < rows → s.mem.wf = true →
        EngineReads s 1 w.env (w.headA.extractLsb' 0 64 + BitVec.ofNat 64 (4 * row)) 4 p →
        EngineReads s 1 w.env (w.headA.extractLsb' 0 64 + BitVec.ofNat 64 (4 * (row + 1))) 4 p →
        EngineReads s 1 w.env (w.headB.extractLsb' 0 64 + BitVec.ofNat 64 (4 * row)) 4 q →
        EngineReads s 1 w.env (w.headB.extractLsb' 0 64 + BitVec.ofNat 64 (4 * (row + 1))) 4 q →
        (∀ k, k < 4 → ∃ x, s.engineXlat w.env .store (w.block.extractLsb' 384 64 + BitVec.ofNat 64 (4 * row) + BitVec.ofNat 64 k) 1 = .ok x
          ∧ x.place = .near (h + k)) →
        ∃ t, exec (.weltMergeRow cl) s = .next t ∧ Stored s t h [0, 0, 0, 0])
      ∧ (w.started = true → rows ≤ w.rowsDone → ∃ t, exec (.weltComplete cl) s = .next t ∧ t.launches = s.launches
        ∧ WeltEnds s t cl w w.lines fval (((w.block.extractLsb' 32 32).toNat + rows) % 2 ^ 32) 0)
      ∧ (w.started = false ∨ w.rowsDone < rows → exec (.weltComplete cl) s = .next s)
      ∧ ∀ f : EngFault,
        let failed (t : State) := t.launches = s.launches.map (fun l =>
          if l.lid = w.lid ∧ l.live = true then l.addFault f.code 2 w.tid ((f.addr.extractLsb' 0 52).setWidth 64) else l)
        (w.started = false → s.weltStart w = .error (.stop f) → ∃ t, exec (.weltFault cl) s = .next t ∧ failed t
          ∧ WeltEnds s t cl w [] (~~~fval) row f.word)
        ∧ (w.started = true → w.rowsDone < rows → (s.weltRow w).stop = some (.stop f) → ∃ t, exec (.weltFault cl) s = .next t
          ∧ t.launches = (s.weltRow w).s.launches.map (fun l =>
              if l.lid = w.lid ∧ l.live = true then l.addFault f.code 2 w.tid ((f.addr.extractLsb' 0 52).setWidth 64) else l)
          ∧ WeltEnds (s.weltRow w).s t cl w (natInsertAll (s.weltRow w).lines w.lines) (~~~fval) row f.word))


/-- 05 R113, 06 R140, 18 R317, R318, R328, 01 R21, 09 R209: caches and TLBs take what is fetched for a thread that holds a context; row
fetches of the Awl change timing only; the oldest value on its way arrives; a stream reads ahead. Which entry of a full set of a cache other than a micro-TLB
leaves, and how far the predicted path reaches, are the model's choice (log 8). -/
def Obligations.CachesAndValues : Prop :=
  (∀ (s : State) (layer : Nat) (row : Word), exec (.awlRowFetch layer row) s = .next s)
  ∧ (∀ (s : State) (tid : Nat) (va : Word) (u : Thread) (x : Xlat) (h : Nat), s.thread tid = some u →
    let n := h / 128
    let l : CacheLine := ⟨u.core, n, s.mem.bytesAt (128 * n) 128, s.time⟩
    let inI := ∃ y ∈ s.mem.icache, y.core = u.core ∧ y.line = n
    let inD := ∃ y ∈ s.mem.l1, y.core = u.core ∧ y.line = n
    let runs := u.status = .running ∧ ({ s with me := u } : State).onPath va 512 u.pc = true
    let iF := Instr.instructionFetchFill tid va
    let iD := Instr.dataL1Fill tid va
    (s.translate u.env .fetch none va = .ok x → x.place = .near h →
      (¬ runs ∨ 2 ^ 40 ≤ h → exec iF s = .next s)
      ∧ (runs → h < 2 ^ 40 → inI → ∃ t, exec iF s = .next t
        ∧ t = { s with mem := { s.mem with icache := t.mem.icache } } ∧ CacheUses s.mem.icache t.mem.icache u.core n)
      ∧ (runs → h < 2 ^ 40 → ¬ inI → ∃ t, exec iF s = .next t
        ∧ t = { s with mem := { s.mem with icache := t.mem.icache } }
        ∧ CacheTakes s.mem.icache t.mem.icache 8 (fun y => y.core == u.core && y.line % 64 == n % 64) l))
    ∧ (∀ bad, s.translate u.env .fetch none va = .error bad → exec iF s = .next s)
    ∧ (s.translate u.env .load none va = .ok x → x.place = .near h →
      (u.holds = false ∨ x.cached = false → exec iD s = .next s)
      ∧ (u.holds = true → x.cached = true → inD → ∃ t, exec iD s = .next t
        ∧ t = { s with mem := { s.mem with l1 := t.mem.l1 } } ∧ CacheUses s.mem.l1 t.mem.l1 u.core n)
      ∧ (u.holds = true → x.cached = true → ¬ inD → ∃ t, exec iD s = .next t
        ∧ t = { s with mem := { s.mem with l1 := t.mem.l1 } }
        ∧ CacheTakes s.mem.l1 t.mem.l1 4 (fun y => y.core == u.core && y.line % 256 == n % 256) l)))
  ∧ (∀ (s : State) (agent tid : Nat) (va : Word) (u : Thread), s.thread tid = some u →
    let due := (agent < 9 → u.holds = true) ∧ agent < 11 ∧ va.toNat < 0x000FFF0000000000
    let layer := layerOf u.core
    let entry (owner : Nat) (e : Word) (bits : Nat) : TlbLeaf := ⟨owner, u.root, va.toNat / 2 ^ bits * 2 ^ bits, 2 ^ bits, e⟩
    let own : List Nat := if agent < 9 then [u.core, microTlb u.core agent] else [engineTlb u.core (agent - 9)]
    let i := Instr.pageWalk ⟨agent, tid⟩ va
    (¬ due → exec i s = .next s)
    ∧ (due → ∃ t, exec i s = .next t ∧ t = { s with mem := { s.mem with tlb := t.mem.tlb } }
      ∧ (∀ y ∈ t.mem.tlb, y ∈ s.mem.tlb ∨ (∃ p ∈ s.walkPointers u.root va.toNat layer, y = entry (walkerCache layer) p.1 p.2)
          ∨ ∃ e bits, s.walk u.root va.toNat layer = some (e, bits) ∧ ∃ o ∈ own, y = entry o e bits)
      ∧ (∀ y ∈ s.mem.tlb, y.owner ≠ walkerCache layer → y.owner ∉ own → y ∈ t.mem.tlb)
      ∧ ∀ e bits, s.walk u.root va.toNat layer = some (e, bits) → (∀ o ∈ own, entry o e bits ∈ t.mem.tlb)
        ∧ (agent < 9 → (t.mem.tlb.filter (fun y => y.owner == microTlb u.core agent)).length ≤ 16
          ∧ (t.mem.tlb.filter (fun y => y.owner == u.core && y.base / 2 ^ 16 % 256 == (entry 0 e bits).base / 2 ^ 16 % 256)).length ≤ 8)
        ∧ (9 ≤ agent → (t.mem.tlb.filter (fun y => y.owner == engineTlb u.core (agent - 9))).length ≤ 64)))
  ∧ (∀ (s : State) (tid : Nat),
    let f (u : Thread) : Thread := if u.tid = tid then
        (match u.vals with
          | [] => u
          | v :: r => { u with
              vals := r
              dep := u.dep.set v.dest.toNat (if v.dest = 0 then 0 else s.time + 1) (by have := v.dest.isLt; omega)
              x := if v.dest = 0 then u.x else u.x.set v.dest.toNat v.value (by have := v.dest.isLt; omega) })
      else u
    exec (.valueArrive tid) s = .next { s with me := f s.me, others := s.others.map f })
  ∧ ∀ (s : State) (n pos : Nat) (va : Word) (l : List Byte),
    let st := s.me.stream n
    let due := s.me.holds = true ∧ s.me.carry = none ∧ st.opened = true ∧ st.fib = false ∧ sdDir st.desc = false ∧ st.pos ≤ pos
      ∧ pos < s.me.portEnd n ∧ ∀ a ∈ st.ahead, a.1 ≠ pos
    (¬ due → exec (.streamPrefetch s.me.tid n pos) s = .next s)
    ∧ (due → s.portAddress 0 0 0 .engine n pos = .ok va → s.getElem 0 0 0 .engine va (s.me.portSize n) = .ok l →
      ∃ m, exec (.streamPrefetch s.me.tid n pos) s = .next { s with
          me := s.me.setStream n { st with ahead := st.ahead ++ [(pos, l)] }, mem := m }
        ∧ m = { s.mem with l1 := m.l1, hostLines := m.hostLines, tlb := m.tlb })

/-- 06 R121, R130 to R134, 07 R143, R147, 14 R266: a group that may be performed, no element of which lies in another package, and whose elements have results:
the elements of the destination hold them, elements without a result keep their values, the flags are ORed, what a store writes stands in the lane's store
buffer, the group is complete; then what is complete leaves the window. The rounding mode is that of the entry. T6 elements keep 6 bits. A wake after an empty
line has been filled does so with the read that waited. A group of vsegmax contributes to its blocks, of which those that are then whole get their scale
byte (07 R160, 08 R185, R186). -/
def Obligations.GroupPerformed : Prop :=
  (∀ (s : State) (k g : Nat) (e : Entry) (act : Nat → Act) (fl : Nat → Flags),
    let named := ∃ op ∈ e.ops, s.me.portsOf op ≠ []
    let mask := if e.op.mask.1 = 0 then BitVec.allOnes 16384 else (s.me.kreg e.op.mask.1).bits
    s.me.active = true → s.me.win[k]? = some e → e.op2 = none → wholeOp e.op = false → e.op.returns = none →
    (∀ ty kr d a, e.op ≠ .vsegmax ty kr d a) →
    ∀ e1, (named → e.sel = none → e1 = { e with sel := some mask }) → (¬ named ∨ e.sel ≠ none → e1 = e) →
    let s1 : State := { s with me := { s.me with win := s.me.win.set k e1, rm := e.rm, fz := e.fz } }
    let w := e1.work k false e.op
    let elems := groupElems w.vt.perGroup g
    let width := w.vt.width
    s.allowed k e g = true → s1.farEntry k e1 = false → g ∈ e.pendingGroups s.me (e.work k false e.op) →
    (e.op.isAwl = true → e.parts = [] ∧ ∀ h ∈ e1.pendingGroups s1.me w, h ≤ g → s1.gatherReady k w h = true ∧
      (∀ p ∈ s1.me.olderThan k, s1.lets p.1 p.2 e1 w h = true) ∧ ∀ i ∈ groupElems w.vt.perGroup h, ∃ r, s1.element w i = .ok r) →
    (∀ i ∈ elems, s1.element w i = .ok (act i, fl i)) →
    let pieces := elems.flatMap (fun i => match act i with
      | .bytes kind o => [pieceOf i kind o]
      | .add x => [⟨i, 0, [], [], [x]⟩]
      | _ => [])
    let reads := s.pendingWork.filter (fun p => (s.me.win[p.1]?).any (fun e => e.ops.any (fun op => op.isLoad || s.me.lanesRead op)))
    ∃ (t : State) (parts : List (Nat × Nat)), exec (.loadGroupLand s.me.tid k g) s = .next t.retire
      ∧ (reads = [(k, g)] → exec (.emptyLineFilledWake s.me.tid) s = .next t.retire)
      ∧ t = { s with
          me := { s.me with
            v := t.me.v, k := t.me.k, e := t.me.e, flags := elems.foldl (fun f i => f.or (fl i)) s.me.flags, win := t.me.win, remote := t.me.remote }
          mem := { s.mem with l1 := t.mem.l1, hostLines := t.mem.hostLines, tlb := t.mem.tlb }
          power := t.power }
      ∧ (s.me.remote = [] → t.me.remote = [])
      ∧ (e.op.isAwl = false → parts = e.parts)
      ∧ t.me.win = s.me.win.set k { e1 with
          map0 := e.map0 ||| BitVec.twoPow 256 g
          parts := parts
          held := (storeGroups w s.me.lanes pieces).foldl (fun l h => insertHeld h l) e.held }
      ∧ (∀ d, e.op.vwrites = some d → s.me.port d = none → ∀ i ∈ elems, t.me.vget d width i = match act i with
          | .reg v => (if e.tag0 = Fmt.t6.code ∧ width = 8 then v % 64 else v) % 2 ^ width
          | _ => s.me.vget d width i)
      ∧ (e.op.vwrites = none → t.me.v = s.me.v)
      ∧ (∀ r, e.op.kwrites = some r → r ≠ 0 → ∀ i ∈ elems, i < 16384 → (t.me.kreg r).bits.getLsbD i = match act i with
          | .reg v => v % 2 == 1
          | _ => (s.me.kreg r).bits.getLsbD i)
      ∧ (e.op.kwrites = none → t.me.k = s.me.k))
  ∧ ∀ (s : State) (k g : Nat) (e : Entry) (ty : Ty) (kr : KReg) (d : EReg) (a : VReg) (bit : Nat → Bool) (x : Nat → Nat),
    s.me.active = true → s.me.win[k]? = some e → e.op = .vsegmax ty kr d a → ty.fmt.isInt = false → e.op2 = none → s.me.portsOf e.op = [] →
    s.allowed k e g = true → g ∈ e.pendingGroups s.me (e.work k false e.op) → g < 256 →
    let per := e.vtype.perGroup
    let groupsOf (j : Nat) := (List.range ((e.vl + per - 1) / per)).filter (fun h => decide (h * per < 32 * (j + 1) ∧ 32 * j < (h + 1) * per))
    let takes := ((List.range per).map (fun n => g * per + n)).filter (fun i => decide (32 * (e.vstart / 32) ≤ i ∧ i < e.vl))
    (∀ i ∈ takes, s.me.kread kr i = .ok (bit i)) → (∀ i ∈ takes, bit i = true → s.me.vread a ty.fmt.width i = .ok (x i)) →
    let parts := e.parts ++ (takes.filter bit).map (fun i => (i, x i))
    let values (j : Nat) : List FpValue := (parts.filter (fun p => p.1 / 32 == j)).map (fun p =>
      (numOf s.me.codebook ty.fmt p.2).flushed (ebOf ty.fmt) (fbOf ty.fmt) e.fz)
    let whole (j : Nat) : Prop := j ∈ e.openBlocks ∧ ∀ h ∈ groupsOf j, h = g ∨ e.map0.getLsbD h = true
    ∃ t : State, exec (.loadGroupLand s.me.tid k g) s = .next t.retire
      ∧ t = { s with
          me := { s.me with e := t.me.e, win := t.me.win }
          mem := { s.mem with l1 := t.mem.l1, hostLines := t.mem.hostLines, tlb := t.mem.tlb }
          power := t.power }
      ∧ (∀ r, r ≠ d → t.me.ereg r = s.me.ereg r)
      ∧ ∀ j, j < 256 → (whole j → t.me.eget d j = blockScale (values j)) ∧ (¬ whole j → t.me.eget d j = s.me.eget d j)

/-- 06 R126 to R134, 09 R216, 10 R230, R231, 12 R261, 14 R266, 18 R326, R327, 04 R96: the events of the lanes, the store buffers, the Awl and the matrix engine,
for the thread in focus; an event for another thread acts as it does with that thread in focus. The model's choices: when a group may be performed, and what
a lane has delivered (logs 4 and 19); a poisoned word consumed by a scatter-add counts on the die of the core (logs 19 and 26); which released group may pass
an earlier one (log 35). -/
def Obligations.LaneEvents : Prop :=
  (∀ (s : State) (u : Thread) (a b : Nat), s.me.tid ≠ u.tid → s.others.find? (fun o => o.tid == u.tid) = some u →
    ∀ i ∈ threadEvents u.tid a b, ∀ t, exec i (focusOn s u) = .next t → exec i s = .next (focusBack t s.me.tid))
  ∧ (∀ (s : State) (pre post : List Entry) (e : Entry),
    let full := s.halted s.me.core = true ∨ (∃ l, l < s.me.lanes ∧ 48 ≤ s.me.laneDepth l)
      ∨ ∃ l, l < 8 ∧ s.me.lmask.getLsbD l = true ∧ 64 ≤ s.laneUsed s.me.core l
    s.me.active = true → s.me.win = pre ++ e :: post → (∀ x ∈ pre, x.queued = true) → e.queued = false →
      (¬ full → exec (.broadcast s.me.tid) s = .next { s with me := { s.me with win := pre ++ { e with queued := true } :: post } })
      ∧ (full → exec (.broadcast s.me.tid) s = .next s))
  ∧ (∀ (s : State) (lane k g : Nat), s.me.active = true →
    let mine (p : Nat × Nat) : Bool := match s.me.win[p.1]? with
      | some e => (e.op.isForm && s.formReady p.1 e) || ((s.unit p.1 e || p.2 % s.me.lanes == lane) && s.allowed p.1 e p.2)
      | none => false
    (s.pendingWork.find? mine = some (k, g) → exec (.laneGroupExecute s.me.tid lane) s = exec (.loadGroupLand s.me.tid k g) s)
    ∧ (s.pendingWork.find? mine = none → exec (.laneGroupExecute s.me.tid lane) s = .next s))
  ∧ (∀ (s : State) (k g : Nat), s.me.active = true →
    let reads := s.pendingWork.filter (fun p => (s.me.win[p.1]?).any (fun e => e.ops.any (fun op => op.isLoad || s.me.lanesRead op)))
    (∃ t, exec (.emptyLineFilledWake s.me.tid) s = .next t)
    ∧ (reads = [(k, g)] → exec (.emptyLineFilledWake s.me.tid) s = exec (.loadGroupLand s.me.tid k g) s)
    ∧ (reads = [] → exec (.emptyLineFilledWake s.me.tid) s = .next s.retire))
  ∧ (∀ (s : State) (e : Entry) (rest : List Entry), s.me.active = true → s.me.win = e :: rest →
    let ready := e.complete s.me = true ∧ e.held ≠ [] ∧ e.mq = false
    (e.op.isAwl = false → ready → s.me.st.length < 64 → ∃ t : State, exec (.storeRelease s.me.tid) s = .next t.retire
      ∧ t.me.win = rest ∧ t.me.st = s.me.st ++ [packFar e.held] ∧ t.me.gq = s.me.gq ∧ t = { s with me := t.me })
    ∧ (e.op.isAwl = true ∨ ¬ ready ∨ 64 ≤ s.me.st.length → exec (.storeRelease s.me.tid) s = .next s)
    ∧ (e.op.isAwl = true → ready → ∃ t : State, exec (.gRelease s.me.tid) s = .next t.retire
      ∧ t.me.win = rest ∧ t.me.gq = s.me.gq ++ [packFar e.held] ∧ t.me.st = s.me.st ∧ t = { s with me := t.me })
    ∧ (e.op.isAwl = false ∨ ¬ ready → exec (.gRelease s.me.tid) s = .next s))
  ∧ (∀ (s : State) (idx : Nat) (h : StoreGroup), s.me.st.flatten[idx]? = some h → h.far = [] → h.adds = [] →
    let meets := ∃ o ∈ s.me.st.flatten.take idx, (∃ b ∈ o.near, ∃ c ∈ h.near, c.addr = b.addr)
      ∨ (o.lane = h.lane ∧ o.kind = h.kind ∧ h.kind.getLsbD 0 = true)
    (meets → exec (.storePerform s.me.tid idx) s = .next s)
    ∧ (¬ meets → ∃ t, exec (.storePerform s.me.tid idx) s = .next t
      ∧ t = { s with me := { s.me with st := t.me.st }, mem := t.mem }
      ∧ t.me.st.flatten = s.me.st.flatten.take idx ++ s.me.st.flatten.drop (idx + 1)
      ∧ (h.fill = false → t.mem.empties = s.mem.empties)
      ∧ (∀ n ∈ h.bad, h.nearWord n = true → n ∈ t.mem.poison)
      ∧ (s.mem.wf = true → ∀ a, t.mem.byte a = byteAfter h.near a (s.mem.byte a))))
  ∧ (∀ (s : State) (h : StoreGroup) (more : List StoreGroup) (r : List (List StoreGroup)) (a : AddItem) (as : List AddItem),
    s.me.gq = (h :: more) :: r → h.near = [] → h.far = [] → h.bad = [] → h.adds = a :: as →
    let n := a.fmt.width / 8
    let i := Instr.scatterAddPerform s.me.tid
    let adds (q : List (List StoreGroup)) := q.flatten.flatMap (fun g => g.adds)
    (s.mem.poisonAt a.home n ≠ none → ∃ t, exec i s = .next t
      ∧ t = { errorsBy s (s.me.core / 192) (fun e => { e with cons := if e.cons = BitVec.allOnes 32 then e.cons else e.cons + 1 }) with
          me := { s.me with gq := t.me.gq }, mem := t.mem }
      ∧ t.mem.bytes = s.mem.bytes ∧ adds s.me.gq = a :: adds t.me.gq)
    ∧ (s.mem.poisonAt a.home n = none → s.mem.wf = true → ∃ t l, exec i s = .next t
      ∧ t = { s with me := { s.me with gq := t.me.gq, flags := t.me.flags }, mem := t.mem }
      ∧ adds s.me.gq = a :: adds t.me.gq ∧ Stored s t a.home l ∧ l.length = n
      ∧ (a.fmt.isInt = true → l = leBytes n ((s.mem.number a.home n + a.bits) % 2 ^ a.fmt.width) ∧ t.me.flags = s.me.flags)))
  ∧ (∀ (s : State) (lane k : Nat) (e : Entry), s.me.active = true → s.me.meeting = some (k, e) →
    let older := e.replay = true → ∀ o ∈ s.me.win.take k, o.complete s.me = true
    let all := (∀ l, l < s.me.lanes → e.delivered.getLsbD l = true) ∨ (e.op.isMeeting = true ∧ e.vl = 0 ∧ older)
    let p := s.keepMask k e
    let w := p.2.work k false p.2.op
    (lane < s.me.lanes → e.delivered.getLsbD lane = false → s.delivers k e lane = true →
      (∀ q ∈ p.1.lanePops w lane, p.1.popBytes w.place lane w.since q.1 q.2 ≠ .error .wait) →
      ∃ t, exec (.laneDeliver s.me.tid lane) s = .next t
        ∧ t = { s with me := { s.me with win := t.me.win, streams := t.me.streams, remote := t.me.remote }
                       mem := { s.mem with l1 := t.mem.l1, hostLines := t.mem.hostLines, tlb := t.mem.tlb } }
        ∧ t.me.win = s.me.win.set k { p.2 with delivered := e.delivered ||| BitVec.twoPow 8 lane }
        ∧ ((∀ op ∈ e.ops, s.me.portsOf op = []) → p.2 = e ∧ t.me.streams = s.me.streams ∧ t.me.remote = s.me.remote ∧ t.mem = s.mem))
    ∧ (s.delivers k e lane = true → older)
    ∧ (s.me.lanes ≤ lane ∨ e.delivered.getLsbD lane = true ∨ s.delivers k e lane = false → exec (.laneDeliver s.me.tid lane) s = .next s)
    ∧ (¬ all → exec (.rendezvousDone s.me.tid) s = .next s)
    ∧ (∀ c, all → e.op.isMatrix = true → k = 0 → s.retire = s → s.cores.find? (fun c => c.core == s.me.core) = some c →
      (c.mq.length < 16 → exec (.rendezvousDone s.me.tid) s = .next { s with
        me := { s.me with win := s.me.win.set k { e with mq := true } }
        cores := s.cores.map (fun c => if c.core = s.me.core then { c with mq := c.mq ++ [s.me.tid] } else c) })
      ∧ (16 ≤ c.mq.length → exec (.rendezvousDone s.me.tid) s = .next s)))
  ∧ ∀ (s : State) (core : Nat) (c : CoreRec) (q : List Nat), s.cores.find? (fun c => c.core == core) = some c → c.mq = s.me.tid :: q →
    let coresBy (f : CoreRec → CoreRec) : State := { s with cores := s.cores.map (fun c => if c.core = core then f c else c) }
    ((s.me.win.head?.any (fun e => e.mq) && s.me.active) = true →
      exec (.matrixEngineStart core) s = .next (coresBy (fun c => { c with engine := true })))
    ∧ ((s.me.win.head?.any (fun e => e.mq) && s.me.active) = false → exec (.matrixEngineStart core) s = .next s)
    ∧ (c.engine = false → exec (.mmaRow core) s = .next s ∧ exec (.matrixComplete core) s = .next s)
    ∧ ∀ (e : Entry) (rest : List Entry), c.engine = true → s.me.win = e :: rest → e.mq = true → s.me.active = true →
      let sm : State := { s with me := { s.me with rm := e.rm, fz := e.fz } }
      (∀ pa pb ser m a b cc i is s', e.op = .mma pa pb ser m a b cc → s.me.tileTag (e.work 0 false e.op) = none →
        tileRows (e.work 0 false e.op) = i :: is → sm.tileRow (e.work 0 false e.op) i = .ok s' →
        exec (.mmaRow core) s = .next { s' with me := { s'.me with
            rm := s.me.rm
            fz := s.me.fz
            win := s'.me.win.set 0 { e with vstart := i + 1, map0 := e.map0 ||| BitVec.twoPow 256 i } } }
        ∧ s' = { sm with me := { sm.me with m := s'.me.m, flags := s'.me.flags } })
      ∧ ∀ m, e.op = .mzero m → e.op2 = none → ∃ t : State, exec (.matrixComplete core) s = .next t.retire
        ∧ t.me.mreg m = ⟨Vector.replicate 32 0, 2, true, 0⟩ ∧ t.mem = s.mem ∧ t.others = s.others
        ∧ t.me.win = { e with map0 := BitVec.allOnes 256, map1 := BitVec.allOnes 256, mq := false } :: rest
        ∧ t.cores = s.cores.map (fun c => if c.core = core then { c with mq := c.mq.drop 1, engine := false } else c)

/-- 01 R23, R24, R28, 02 R46, 04 R93, R101, R109, R112, 15 R291, R300 to R303: threads are admitted in index order, age, lose their context at the end of
a slice or when a gang has waited a slice, and a held fault enters. Of holders, the lowest level goes first, then the one placed last. None is parked
from a halted core; one between the slots of a pair word is parked once it has left them. The model's choice (log 20): an arriving thread parks a holder
only if no context is free for it once the placements that come first are made; a thread that is parked enters its queue as one that arrives, and may
park another in turn (`parkEnter`); a gang's wait parks one holder after another until each core of its set has a free context (`gangParks`). -/
def Obligations.KeeperEvents : Prop :=
  (∀ (s : State) (tid : Nat) (u : Thread), s.thread tid = some u →
    let i := Instr.admitThread tid
    let ready (o : Thread) : Thread := if o.tid = tid then { o with status := .ready, levelSince := s.time } else o
    let s1 := { s with me := ready s.me, others := s.others.map ready }
    let u1 := ready u
    let lower (v : Thread) : Prop := v ∈ s1.me :: s1.others ∧ v.holds = true ∧ v.cluster = u.cluster ∧ v.due = .none ∧ s1.noneHalted v = true ∧ u.level < v.level
    let next : Prop := u.status = .created ∧ ∀ o ∈ s.me :: s.others, o.status = .created → o.lid = u.lid → o.cluster = u.cluster → u.idx ≤ o.idx
    (¬ next → exec i s = .next s)
    ∧ (next → (s1.noContext u1 = false ∨ ∀ v, ¬ lower v) → exec i s = .next s1)
    ∧ (∀ v, next → s1.noContext u1 = true → lower v →
      (∀ o, lower o → o ≠ v → o.level < v.level ∨ (o.level = v.level ∧ o.placedAt < v.placedAt)) → exec i s = .next (s1.parkGroup v.tid)))
  ∧ (∀ (s : State) (tid : Nat) (u : Thread), s.thread tid = some u →
    let i := Instr.agingInterval tid
    let due := u.levelSince + (s.cluster u.cluster).aging
    let aged (o : Thread) : Thread := if o.tid = tid then { o with level := o.level - 1, levelSince := due } else o
    (u.queued = true → u.level ≠ 0 →
      exec i s = .next { s.tick due with me := aged s.me, others := s.others.map aged })
    ∧ (u.queued = false ∨ u.level = 0 → exec i s = .next s))
  ∧ (∀ (s : State),
    let i := Instr.sliceEnd s.me.tid
    let ended := s.tick (s.me.placedAt + (s.cluster s.me.cluster).slice)
    let out := (ended.performReleased).leaveEngine s.me.tid
    (s.me.holds = false ∨ s.rival s.me = false ∨ s.noneHalted s.me = false ∨ s.me.due ≠ .none → exec i s = .next s)
    ∧ (s.me.holds = true → s.rival s.me = true → s.halted s.me.core = false → s.me.due = .none → s.me.crew = 0 →
      (∀ o ∈ s.others, o.tid ≠ s.me.tid) →
      (s.me.between = true → exec i s = .next { ended with me := { ended.me with due := .park } })
      ∧ (s.me.between = false → s.me.fault = none →
        (∀ o ∈ s.others, o.holds = true → o.cluster = s.me.cluster → o.level ≤ s.me.level) →
        exec i s = .next { out with me := parkedAt out.me out.time })))
  ∧ (∀ (s : State) (cl l : Nat) (g : GangSet),
    let i := Instr.gangWaitSliceExpiry cl
    let s1 := s.tick (g.since + (s.cluster cl).slice)
    let lower (v : Thread) : Prop := v ∈ s.me :: s.others ∧ v.holds = true ∧ v.core ∈ g.cores ∧ s.freeCtx v.core = none ∧ s.halted v.core = false
      ∧ (∀ o ∈ s.me :: s.others, o.holds = true → o.core = v.core → o.due = .none) ∧ s.noneHalted v = true ∧ l ≤ v.level
    ((s.cluster cl).gangSets = [] → exec i s = .next s)
    ∧ ((s.cluster cl).gangSets = [g] → s.gangLevel cl g = none → exec i s = .next s1)
    ∧ ((s.cluster cl).gangSets = [g] → s.gangLevel cl g = some l →
      ((∀ v, ¬ lower v) → exec i s = .next s1)
      ∧ ∀ v, lower v → (∀ o, lower o → o ≠ v → o.level < v.level ∨ (o.level = v.level ∧ o.placedAt < v.placedAt)) →
        exec i s = .next (gangParks l g.cores 63 (s1.parkEnter v.tid))))
  ∧ ∀ (s : State) (f : Trap), s.me.fault = some f →
    let i := Instr.trapEntry s.me.tid
    (s.me.holds = false ∨ s.halted s.me.core = true → exec i s = .next s)
    ∧ (s.me.holds = true → s.halted s.me.core = false → TrapsHandled s → ∃ t, exec i s = .next t
      ∧ t.me.pc = s.me.tvec ∧ t.me.epc = s.me.pc ∧ t.me.ecause = (f.src ++ f.code).setWidth 64
      ∧ t.me.einfo = f.detail ++ f.pc.setWidth 52 ∧ t.me.eaddr = f.addr ∧ t.me.estream = f.stream ∧ t.me.tip = true ∧ t.me.priv = .sup
      ∧ t.me.psup = decide (s.me.priv = .sup) ∧ t.me.held = !s.me.win.isEmpty ∧ t.me.fault = none
      ∧ (∀ n, f.vstart = some n → t.me.vstart = BitVec.ofNat 64 n) ∧ t.me.x = s.me.x ∧ t.me.v = s.me.v ∧ t.mem = s.mem
      ∧ t.others = s.others)
    ∧ (s.me.holds = true → s.halted s.me.core = false → s.me.tip = false → s.me.tvec = 0 → ∃ t, exec i s = .next t
      ∧ t.me.status = .retired ∧ t.mem = s.mem)

/-- 15 R292, R300, R301, 05 R113, 06 R139, 13 R262, 19 R344: the keeper places the head of a cluster's queues: on the core asked for by hafn, then the
core it was parked from, then one with the fewest contexts taken, the lowest number on a tie. The thread in focus is placed so, with its
window empty, no fibre open and no copy in its cluster; where its saved image is poisoned its launch ends. Scratchpad lines it wrote on its old core
are then carried over, unless the copy engine is paused, and its fibres read their rows again. What leaves the data L1 at a move is the model's choice
(log 8); so are the core whose lines go with a thread that was parked again before they were carried, that a poisoned image ends the launch as an
unhandled trap, and bounds of rows that cannot be read now (log 20). -/
def Obligations.Placement : Prop :=
  (∀ (s : State) (cl c : Nat) (u : Thread) (r : List Thread),
    let i := Instr.placeThread cl
    let open_ (k : Nat) : Prop := k ∈ clusterCores cl ∧ s.coreOpen k = true ∧ s.freeCtx k ≠ none ∧ s.grantFor u k ≠ 0 ∧ u.fits (s.grantFor u k) = true
    let load (k : Nat) := (s.holders k).length
    (s.host.quiesced = true → exec i s = .next s)
    ∧ (s.host.quiesced = false → (∀ k ∈ s.clusters, k.gangSets = []) →
      (s.queue cl = [] → exec i s = .next s)
      ∧ (s.queue cl = u :: r → s.isGang u = false → open_ c →
        (u.hafn = some (c % 16) ∨ (∀ k, open_ k → u.hafn ≠ some (k % 16)) ∧ (u.lastCore = some c
          ∨ (∀ k, open_ k → u.lastCore ≠ some k) ∧ ∀ k, open_ k → k ≠ c → load c < load k ∨ (load c = load k ∧ c < k))) →
        exec i s = .next (s.placeOn u.tid c))))
  ∧ (∀ (s : State) (core : Nat), s.freeCtx core = none ∨ s.me.queued = false → s.placeOn s.me.tid core = s)
  ∧ (∀ (s : State) (core ctx : Nat), s.freeCtx core = some ctx → s.me.queued = true → s.me.imgBad = true → ∃ t, s.placeOn s.me.tid core = t
      ∧ t.me.status = .retired ∧ ∀ l ∈ t.launches, l.lid = s.me.lid → l.live = true → 0 < l.faults)
  ∧ (∀ (s : State) (core ctx : Nat), s.freeCtx core = some ctx → s.me.queued = true → s.me.win = [] → s.me.wait = none →
    (s.cluster s.me.cluster).copies = [] →
    s.me.imgBad = false → (∀ n, n < 4 → (s.me.stream n).fib = false) →
    let from_ := s.me.carry.or s.me.lastCore
    let known := (s.seenOn core).contains s.me.lid
    ∃ t, s.placeOn s.me.tid core = t
      ∧ t = { s with
          me := { s.me with status := .running, core := core, ctx := ctx, lmask := s.laneSet core (s.grantFor s.me core),
                            level := s.me.wantLevel.getD s.me.launchLevel, levelSince := s.time, placedAt := s.time, passed := 0, wasPlaced := true,
                            lastCore := none, carry := if from_ = some core then none else from_ }
          mem := { s.mem with
            l1 := if s.me.lastCore = some core then s.mem.l1 else s.mem.l1.filter (fun l => l.core != core)
            icache := if known then s.mem.icache else s.mem.icache.filter (fun l => l.core != core) }
          cores := t.cores
          launches := s.launches.map (fun l => if l.lid = s.me.lid ∧ l.live = true then
            { l with started := if s.me.wasPlaced then l.started else l.started + 1, tstart := l.tstart.or (some s.time) } else l) }
      ∧ (s.me.lid ∈ t.seenOn core) ∧ (∀ k, k ≠ core → t.seenOn k = s.seenOn k) ∧ ∀ k, t.halted k = s.halted k ∧ t.coreLanes k = s.coreLanes k)
  ∧ ∀ (s : State) (c : Nat),
    let i := Instr.scratchpadCarry s.me.tid
    let cl := s.cluster s.me.cluster
    let owned (l : Nat) : Prop := (l, s.me.tid) ∈ s.mem.owners ∧ coreSram c ≤ 128 * l ∧ 128 * l < coreSram (c + 1)
    let onto (l : Nat) : Nat := l - coreSram c / 128 + coreSram s.me.core / 128
    (s.me.carry = none → exec i s = .next s)
    ∧ (s.me.carry = some c → (s.me.holds = false ∨ cl.pause = true ∨ (∃ x ∈ cl.copies, x.tid = s.me.tid) ∨ ∃ w ∈ cl.welts, w.tid = s.me.tid) →
      exec i s = .next s)
    ∧ (s.me.carry = some c → c ≠ s.me.core → s.me.holds = true → cl.pause = false → (∀ x ∈ cl.copies, x.tid ≠ s.me.tid) →
      (∀ w ∈ cl.welts, w.tid ≠ s.me.tid) →
      s.mem.wf = true → ∃ m : Mem, exec i s = .next (({ s with me := { s.me with carry := none }, mem := m } : State).rereadRows)
        ∧ (∀ l, owned l → (∀ k, k < 128 → m.byte (128 * onto l + k) = s.mem.byte (128 * l + k))
          ∧ (onto l ∈ m.empties ↔ l ∈ s.mem.empties))
        ∧ (∀ a, (∀ l, owned l → a / 128 ≠ onto l) → m.byte a = s.mem.byte a)
        ∧ ∀ l, (∀ k, owned k → l ≠ onto k) → (l ∈ m.empties ↔ l ∈ s.mem.empties))


/-- 19 R331, R335 to R338, R340 to R342: frames, sensors, energy, firmware's power control, the thermal emergency, the slack governor, the
lanterns and PLIM. The model's choices: one POWER_CONTROL event is one step of R335, and the package accumulator counts what a layer's does (log 30); the
sample that shows the SRAM dies cool completes the boot, and the compute layers take no sample before it (log 32); bits [31:16] of a PLIM write change
nothing (log 36). -/
def Obligations.PowerEvents : Prop :=
  (∀ (s : State) (cl : Nat), ∃ t, exec (.flashFrame cl) s = .next t
    ∧ t = { s with time := t.time, clusters := t.clusters, power := t.power }
    ∧ t.time % 16 = 0 ∧ s.time < t.time ∧ t.time ≤ s.time + 16
    ∧ t.clusters.length = s.clusters.length
    ∧ (∀ (k : Nat) (c : Cluster), s.clusters[k]? = some c → (t.clusters[k]?).map (fun d => d.flashapp) = some (flashApplied c.flashchr c.flashcap))
    ∧ (t.time % 3500000 ≠ 0 → t.power = s.power
      ∧ t.clusters = s.clusters.map (fun c => { c with flashapp := flashApplied c.flashchr c.flashcap }))
    ∧ (t.time % 17500000 = 0 → t.power.winStart = t.time ∧ t.power.winEnergy = s.power.energy[8]))
  ∧ (∀ (s : State) (die sensor : Nat) (temp : BitVec 16),
    let is := (die < 8 ∧ sensor < 64 ∧ s.host.active = true) ∨ (8 ≤ die ∧ die < 12 ∧ sensor < 16)
    let i := Instr.sensorSample die sensor temp
    (¬ is → exec i s = .next s)
    ∧ (is → ∃ t, exec i s = .next t ∧ t = { s with power := { s.power with sensors := t.power.sensors },
                                                                       host := { s.host with active := t.host.active } }
      ∧ (t.host.active = true ↔ s.host.active = true ∨ (s.host.stopped = false ∧ ∀ d n, 8 ≤ d → d < 12 → n < 16 →
          ∃ x ∈ t.power.sensors, x.1 = d ∧ x.2.1 = n ∧ x.2.2.toInt < 1600))
      ∧ t.sensorWord die sensor = 1#1 ++ 0#15 ++ temp
      ∧ ∀ d n, ¬ (d = die ∧ n = sensor) → t.sensorWord d n = s.sensorWord d n))
  ∧ (∀ (s : State) (acc delta : Nat),
    (9 ≤ acc → exec (.energyUpdate acc delta) s = .next s)
    ∧ (acc < 9 → ∃ t, exec (.energyUpdate acc delta) s = .next t ∧ t = { s with power := { s.power with energy := t.power.energy } }
      ∧ ∀ k, (hk : k < 9) → t.power.energy[k] = if k = acc ∨ k = 8 then s.power.energy[k] + BitVec.ofNat 64 delta else s.power.energy[k]))
  ∧ (∀ (s : State) (cl lbcap : Nat) (mv : BitVec 16), cl < 96 →
    let lc := s.laneCount cl
    let c := s.cluster cl
    let target := max lc (min lbcap (4 * lc))
    let hot := ∃ x ∈ s.power.sensors, x.1 = cl / 12 ∧ 1680 < x.2.2.toInt
    let above := s.power.plim * (s.time - s.power.winStart) < 1750 * (s.power.energy[8] - s.power.winEnergy).toNat
    let volts (t : State) (f : BitVec 16 → BitVec 16) : Prop :=
      ∀ k, (hk : k < 8) → t.power.volt[k] = if k = cl / 12 then f s.power.volt[k] else s.power.volt[k]
    (∃ t, exec (.powerControl cl true lbcap mv) s = .next t
      ∧ t = { s with clusters := t.clusters, power := { s.power with volt := t.power.volt } }
      ∧ volts t (fun v => if mv < v then mv else v)
      ∧ t.clusters = if c.lbcap ≠ lc then s.clusters.map (fun k => if k.id = cl then { k with lbcap := min k.lbcap target } else k)
          else capsSet (s.clusters.map (fun k => if k.id = cl then { k with thermal := max 4 (k.thermal - 1) } else k)) s.power.govn)
    ∧ (hot ∨ above → exec (.powerControl cl false lbcap mv) s = .next s)
    ∧ (¬ (hot ∨ above) → ∃ t, exec (.powerControl cl false lbcap mv) s = .next t
      ∧ t = { s with clusters := t.clusters, power := { s.power with volt := t.power.volt } }
      ∧ volts t (fun v => if v < mv then mv else v)
      ∧ t.clusters = if c.thermal < 16 then
          capsSet (s.clusters.map (fun k => if k.id = cl then { k with thermal := k.thermal + 1 } else k)) s.power.govn
          else s.clusters.map (fun k => if k.id = cl then { k with lbcap := max k.lbcap target } else k)))
  ∧ (∀ (s : State) (layer : Nat),
    let hot := layer < 8 ∧ ∃ x ∈ s.power.sensors, x.1 = layer ∧ 1888 ≤ x.2.2.toInt
    (hot → exec (.thermalEmergency layer) s = .next { s with clusters := capsSet (s.clusters.map (fun c =>
        if c.id / 12 = layer then { c with thermal := 4, lbcap := s.laneCount c.id } else c)) s.power.govn })
    ∧ (¬ hot → exec (.thermalEmergency layer) s = .next s))
  ∧ (∀ (s : State),
    let n := s.power.slackCount
    let sum := s.power.slackSum
    let g := s.power.govn
    ∃ t, exec .slackInterval s = .next t
      ∧ t = { s with
          time := t.time
          clusters := capsSet (s.clusters.map (fun c => { c with flashapp := flashApplied c.flashchr c.flashcap })) t.power.govn
          power := { s.power with govn := t.power.govn, dwell := t.power.dwell, slackSum := 0, slackCount := 0,
                                  winStart := t.power.winStart, winEnergy := t.power.winEnergy } }
      ∧ (t.time % 17500000 ≠ 0 → t.power.winStart = s.power.winStart ∧ t.power.winEnergy = s.power.winEnergy)
      ∧ (t.time % 17500000 = 0 → t.power.winStart = t.time ∧ t.power.winEnergy = s.power.energy[8])
      ∧ t.time % 3500000 = 0 ∧ s.time < t.time ∧ t.time ≤ s.time + 3500000
      ∧ (n ≠ 0 → 8 ≤ s.power.dwell → 200 * (n : Int) < sum → 4 < g → t.power.govn = g - 1 ∧ t.power.dwell = 2)
      ∧ (n ≠ 0 → 8 ≤ s.power.dwell → sum < -200 * (n : Int) → g < 16 → t.power.govn = g + 1 ∧ t.power.dwell = 2)
      ∧ (n = 0 ∨ s.power.dwell < 8 ∨ (-200 * (n : Int) ≤ sum ∧ sum ≤ 200 * (n : Int)) ∨ (200 * (n : Int) < sum ∧ g ≤ 4)
          ∨ (sum < -200 * (n : Int) ∧ 16 ≤ g) → t.power.govn = g ∧ t.power.dwell = s.power.dwell + 2))
  ∧ (∀ (s : State) (m : BitVec 64),
    (m = 0 → exec (.lanternTrip m) s = .next s)
    ∧ ∀ i, m.getLsbD i = true → (∀ j, j < i → m.getLsbD j = false) → ∃ t, exec (.lanternTrip m) s = .next t
      ∧ t.powered = false ∧ t.power.lntstat = s.power.lntstat ||| m
      ∧ t.power.lntfirst = (if s.power.lntfirst.getLsbD 6 then s.power.lntfirst else BitVec.ofNat 7 (64 + i))
      ∧ HostMemoryLeft s t ∧ t.me = State.reset.me ∧ t.others = [] ∧ t.launches = [] ∧ t.fab = Fabric.atReset
      ∧ t.pkgnum = s.pkgnum ∧ t.host.build = s.host.build
      ∧ (t.agenda = [] → step t = .fault .unpowered))
  ∧ ∀ (s : State) (watts : BitVec 32), exec (.plimWrite watts) s =
      .next { s with power := { s.power with
        plim := if 1000 ≤ watts.toNat % 65536 ∧ watts.toNat % 65536 ≤ 3200 then watts.toNat % 65536 else s.power.plim } }

/-- 19 R337, R339, R341, R343 to R345, R347: corrected and uncorrectable errors, the scrubber, and the reads of energy, counters and logs. The model's
choices (log 31): the die of a home address, the unit that a scratchpad bank or a contribution is, the place bits of a register, what a poisoned register
word is, no ERRLOG entry for a line or translation that is dropped and fetched again, the kinds that a buffer word (0) and an image word (3) are logged
with, and that an access to a register that is lost ends the launch with a fault at address 0. -/
def Obligations.ErrorEvents : Prop :=
  (∀ (s : State) (die : Nat), exec (.correctedError die) s =
    .next (errorsBy s die (fun e => { e with ce := if e.ce = BitVec.allOnes 32 then e.ce else e.ce + 1 })))
  ∧ (∀ (s : State) (word : Nat),
    let at' (die : Nat) (kind : BitVec 3) : State :=
      errorsBy { s with mem := { s.mem with poison := natInsert word s.mem.poison } } die (errorAt kind (8 * word))
    let i := Instr.scrub word true
    let counted (unit : Option Nat) (t : State) : State := match unit with | some u => unitCounted t u | none => t
    exec (.scrub word false) s = .next s
    ∧ (8 * word < 2 ^ 40 →
      (∀ c ph pos, s.hbmPlace (8 * word) = some (c, ph, pos) →
        exec i s = .next (unitCounted (at' (8 + 8 * word / 2 ^ 38) 3) (4 * 2 ^ 32 + c * 128 + ph)))
      ∧ (s.hbmPlace (8 * word) = none → exec i s = .next s))
    ∧ (∀ core, core < 1536 → coreSram core ≤ 8 * word → 8 * word < coreSram (core + 1) →
        exec i s = .next (unitCounted (at' (core / 192) 0) (2 ^ 32 + core)))
    ∧ (∀ cl, cl < 96 → clusterSram cl ≤ 8 * word → 8 * word < clusterSram (cl + 1) →
        exec i s = .next (counted (s.unitOf (8 * word)) (at' (cl / 12) 0)))
    ∧ (∀ ch, ch < 4 → chipSram ch ≤ 8 * word → 8 * word < chipSram (ch + 1) →
        exec i s = .next (counted (s.unitOf (8 * word)) (at' (8 + ch) 0)))
    ∧ ∀ core lane, core < 1536 → lane < 8 → laneSram core lane ≤ 8 * word → 8 * word < laneSram core (lane + 1) →
      exec i s = .next (unitCounted (at' (core / 192) 4) (core * 8 + lane)))
  ∧ (∀ (s : State) (die unit : Nat) (kind : BitVec 3) (word core line owner base : Nat),
    let refetched (t : State) : Out :=
      .next (unitCounted (errorsBy t die (fun e => { e with rfet := if e.rfet = BitVec.allOnes 32 then e.rfet else e.rfet + 1 })) unit)
    exec (.uncorrectableError die unit .refetched) s = refetched s
    ∧ exec (.uncorrectableError die unit (.cacheLine core line)) s = refetched { s with mem := { s.mem with
        l1 := s.mem.l1.filter (fun c => !(c.core == core && c.line == line))
        icache := s.mem.icache.filter (fun c => !(c.core == core && c.line == line)) } }
    ∧ exec (.uncorrectableError die unit (.translation owner base)) s = refetched { s with mem := { s.mem with
        tlb := s.mem.tlb.filter (fun t => !(t.owner == owner && t.base == base)) } }
    ∧ exec (.uncorrectableError die unit (.memory kind word)) s = .next (unitCounted
        (errorsBy { s with mem := { s.mem with poison := natInsert word s.mem.poison } } die (errorAt kind (8 * word))) unit))
  ∧ (∀ (s : State) (die unit : Nat) (r : VReg) (word : Nat), word < 128 → (∀ o ∈ s.others, o.tid ≠ s.me.tid) →
    let place := s.me.core / 192 % 8 * 2 ^ 28 + s.me.core / 16 % 12 * 2 ^ 24 + s.me.core % 16 * 2 ^ 20 + s.me.ctx % 4 * 2 ^ 16
    ∃ t, exec (.uncorrectableError die unit (.register s.me.tid 0 r.toNat word)) s = .next t
      ∧ t = unitCounted (errorsBy { s with me := { s.me with v := t.me.v } } die (errorAt 1 (place + r.toNat))) unit
      ∧ ∀ n : VReg, t.me.vreg n.toNat = if n = r then
          { s.me.vreg n.toNat with poison := (s.me.vreg n.toNat).poison ||| BitVec.twoPow 128 word } else s.me.vreg n.toNat)
  ∧ (∀ (s : State) (die unit word loc : Nat), (∀ o ∈ s.others, o.tid ≠ s.me.tid) →
    let spoilt (h : StoreGroup) : StoreGroup := if h.nearWord word || h.farWord word then { h with bad := natInsert word h.bad } else h
    exec (.uncorrectableError die unit (.buffer s.me.tid word)) s = .next (unitCounted (errorsBy { s with me := { s.me with
        win := s.me.win.map (fun e => { e with held := e.held.map spoilt })
        st := s.me.st.map (fun l => l.map spoilt)
        gq := s.me.gq.map (fun l => l.map spoilt) } } die (errorAt 0 (8 * word))) unit)
    ∧ exec (.uncorrectableError die unit (.image s.me.tid loc)) s = .next (unitCounted (errorsBy { s with me := { s.me with
        imgBad := if s.me.status = .parked then true else s.me.imgBad } } die (errorAt 3 loc)) unit))
  ∧ (∀ (s : State) (die unit : Nat) (reg : XReg), s.me.status ≠ .retired → s.me.between = false →
    let place := s.me.core / 192 % 8 * 2 ^ 28 + s.me.core / 16 % 12 * 2 ^ 24 + s.me.core % 16 * 2 ^ 20 + s.me.ctx % 4 * 2 ^ 16
    ∃ t, exec (.uncorrectableError die unit (.access s.me.tid reg)) s = .next t ∧ t.me.status = .retired ∧ t.mem = s.mem
      ∧ (∀ u ∈ t.others, u.lid = s.me.lid → u.status = .retired ∨ (u.between = true ∧ u.due = .retire))
      ∧ (∀ l ∈ t.launches, l.lid = s.me.lid → l.live = true → 0 < l.faults)
      ∧ ∀ (h : die < 12), t.power.errors[die].log =
          if s.power.errors[die].log.getLsbD 63 then s.power.errors[die].log else 1#1 ++ 5#3 ++ 0#4 ++ BitVec.ofNat 56 (place + reg.toNat))
  ∧ (∀ (s : State) (acc : Nat) (h : acc < 9),
    exec (.energyRead64 acc) s = .next (hostReads s (leBytes 8 s.power.energy[acc].toNat))
    ∧ exec (.energyReadLow acc) s = .next { hostReads s (leBytes 4 s.power.energy[acc].toNat) with
        power := { s.power with latch := s.power.latch.set acc (s.power.energy[acc].extractLsb' 32 32) } }
    ∧ exec (.energyReadHigh acc) s = .next (hostReads s (leBytes 4 s.power.latch[acc].toNat)))
  ∧ (∀ (s : State) (die : Nat) (h : die < 12),
    let e := s.power.errors[die]
    (∀ p ∈ [(0, e.ce, { e with ce := 0 }), (1, e.uep, { e with uep := 0 }), (2, e.uenc, { e with uenc := 0 }), (3, e.rfet, { e with rfet := 0 }),
        (4, e.cons, { e with cons := 0 })],
      exec (.errorCounterRead die p.1) s = .next (errorsBy (hostReads s (leBytes 4 p.2.1.toNat)) die (fun _ => p.2.2)))
    ∧ exec (.errlogRead die) s = .next (errorsBy (hostReads s (leBytes 8 e.log.toNat)) die (fun e => { e with log := 0 })))
  ∧ ∀ (s : State) (first : Bool), exec (.lanternRecordRead first) s =
      .next { hostReads s (leBytes 8 (if first then s.power.lntfirst.toNat else s.power.lntstat.toNat)) with
        power := { s.power with lntstat := 0, lntfirst := 0 } }

/-- 20 R355 to R360, R363 to R365, R369, R370, R373, 18 R320: the host's registers and the mailbox. A command while another is executed is
ignored; recovery refuses all but FWSTAGE, FWACT and RESET. What signatures and images hold are free values (log 11). The model's choices: a launch block
that is poisoned, a length below the 29,792 bytes of a signature and an INVAL base that is no multiple of 64 KiB answer CODE 1, and RES is 0 where the
spec gives no value (log 33); a boot that has stopped at a signature leaves commands busy (log 32). -/
def Obligations.Mailbox : Prop :=
  (∀ (s : State) (cmd : BitVec 8), s.host.busy = true → s.host.cmd ≠ cmd →
    (∀ p ∈ [((1 : BitVec 8), Instr.dstart), (2, .inval), (3, .fwstage), (4, .fwact), (5, .attest), (6, .quiesce), (7, .resume), (8, .mailboxReset)],
      p.1 = cmd → exec p.2 s = .next s)
    ∧ exec (.unknownCommand cmd) s = .next s)
  ∧ (∀ (s : State) (cmd : BitVec 8), (cmd = 0 ∨ 8 < cmd.toNat) → MailboxFree s cmd → Completed s cmd 3 0 (exec (.unknownCommand cmd) s))
  ∧ (∀ (s : State), s.host.stopped = true → s.host.busy = false →
    ∀ p ∈ [((1 : BitVec 8), Instr.dstart), (2, .inval), (3, .fwstage), (4, .fwact), (5, .attest), (6, .quiesce), (7, .resume), (8, .mailboxReset)],
      exec p.2 s = .next { s with host := { s.host with cmd := p.1, busy := true, done := false } })
  ∧ (∀ (s : State),
    let root := s.host.args[0].toNat
    let blk := s.host.args[1].toNat
    let badArgs := root % 65536 ≠ 0 ∨ 2 ^ 40 ≤ root ∨ blk % 64 ≠ 0 ∨ s.spot blk ≠ .hbm ∨ s.mem.poisonAt blk 64 ≠ none
    let b := BitVec.ofNat 512 (s.mem.number blk 64)
    let sup : State := { s with me := { s.me with priv := .sup } }
    let open_ := s.host.fogstat = 0 ∧ s.host.quiesced = false ∧ s.host.active = true
    MailboxFree s 1 →
      (¬ open_ → Completed s 1 4 0 (exec .dstart s))
      ∧ (open_ → badArgs → Completed s 1 1 0 (exec .dstart s))
      ∧ (∀ n, open_ → ¬ badArgs → LaunchBad sup b n → (∀ m, m < n → ¬ LaunchBad sup b m) → Completed s 1 1 (BitVec.ofNat 32 n) (exec .dstart s))
      ∧ (open_ → ¬ badArgs → (∀ n, ¬ LaunchBad sup b n) → ¬ LaunchFits s b → Completed s 1 5 0 (exec .dstart s))
      ∧ (open_ → ¬ badArgs → (∀ n, ¬ LaunchBad sup b n) → LaunchFits s b → ∃ t, exec .dstart s = .next t
        ∧ t.host = { s.host with cmd := 1, busy := false, done := true, code := 0, res := BitVec.ofNat 32 s.nextLid }
        ∧ t.nextLid = (s.nextLid + 1) % 2 ^ 32 ∧ t.mem = s.mem
        ∧ (∃ l ∈ t.launches, l.lid = s.nextLid ∧ l.block = b ∧ l.live = true ∧ l.root = root ∧ l.retired = 0)
        ∧ ∀ k, k < (b.extractLsb' 128 32).toNat →
          ∃ u ∈ t.me :: t.others, u.lid = s.nextLid ∧ u.idx = k ∧ u.status = .created ∧ u.root = root ∧ u.tvec = 0
            ∧ u.pc = b.extractLsb' 0 64 ∧ u.priv = if b.getLsbD 199 then .sup else .job))
  ∧ (∀ (s : State),
    let root := s.host.args[0].toNat
    let base := s.host.args[1].toNat
    let pages := s.host.args[2].toNat
    let covers (e : TlbLeaf) : Prop := (root = 0 ∨ e.root = root) ∧ (pages = 0 ∨ (e.base < base + pages * 65536 ∧ base < e.base + e.size))
    let replied (l : List RemoteLoad) : Prop := ∀ r ∈ l, r.reply ≠ .none
    let settled := (∀ u ∈ s.me :: s.others, u.st = [] ∧ u.gq = [] ∧ (∀ e ∈ u.win, e.held = []) ∧ replied u.remote)
      ∧ ∀ c ∈ s.clusters, ∀ x ∈ c.copies, replied x.remote
    MailboxFree s 2 →
      (s.host.fogstat ≠ 0 → Completed s 2 4 0 (exec .inval s))
      ∧ (s.host.fogstat = 0 → base % 65536 ≠ 0 → Completed s 2 1 0 (exec .inval s))
      ∧ (s.host.fogstat = 0 → base % 65536 = 0 → ∃ l, (∀ e, e ∈ l ↔ e ∈ s.mem.tlb ∧ ¬ covers e)
        ∧ (settled → Completed { s with mem := { s.mem with tlb := l } } 2 0 0 (exec .inval s))
        ∧ (¬ settled → exec .inval s = .next { s with
            mem := { s.mem with tlb := l }, host := { s.host with cmd := 2, busy := true, done := false } })))
  ∧ (∀ (s : State), MailboxFree s 3 →
    let n := s.host.len.toNat
    let at' (a k : Nat) : List Byte := (List.range k).map (fun i => cellGet s.host.payload (a + i))
    let idx := s.host.args[0].toNat
    let body := at' 0 (n - 29792)
    let good := Config.signatureOk 0 (leBytes 8 idx ++ leBytes 8 (n - 29792) ++ body) (at' (n - 29792) 29792)
    (n < 29792 ∨ 32768 < n → Completed s 3 1 0 (exec .fwstage s))
    ∧ (29792 ≤ n → n ≤ 32768 → good = true → Completed { s with host := { s.host with
        sigfail := 0, staged := s.host.staged.filter (fun c => c.1 != idx) ++ [(idx, body)] } } 3 0 0 (exec .fwstage s))
    ∧ (29792 ≤ n → n ≤ 32768 → good = false → s.host.sigfail.toNat < 2 →
      Completed { s with host := { s.host with sigfail := s.host.sigfail + 1 } } 3 2 0 (exec .fwstage s))
    ∧ (29792 ≤ n → n ≤ 32768 → good = false → 2 ≤ s.host.sigfail.toNat → ∃ t, exec .fwstage s = .next t
      ∧ t.host.fogstat = s.host.fogstat ||| 16 ∧ t.host.keyErased = true ∧ t.host.seed = [] ∧ HostMemoryLeft s t ∧ t.others = []))
  ∧ (∀ (s : State), MailboxFree s 4 →
    let build := Config.imageBuild s.host.staged
    let whole := s.host.staged ≠ [] ∧ Config.imageWhole s.host.staged = true
    let signed := Config.imageSigned s.host.staged = true
    let verified : HostSide := { s.host with sigfail := 0 }
    (¬ whole → Completed s 4 4 0 (exec .fwact s))
    ∧ (whole → ¬ signed → s.host.sigfail.toNat < 2 →
      Completed { s with host := { s.host with sigfail := s.host.sigfail + 1 } } 4 2 0 (exec .fwact s))
    ∧ (whole → ¬ signed → 2 ≤ s.host.sigfail.toNat → ∃ t, exec .fwact s = .next t
      ∧ t.host.fogstat = s.host.fogstat ||| 16 ∧ t.host.keyErased = true ∧ t.host.seed = [] ∧ HostMemoryLeft s t ∧ t.others = [])
    ∧ (whole → signed → build < s.host.minBuild → Completed { s with host := verified } 4 4 0 (exec .fwact s))
    ∧ (whole → signed → s.host.minBuild ≤ build → (∀ u ∈ s.me :: s.others, u.holds = false) → s.quiet = true →
      let h : HostSide := { verified with build := BitVec.ofNat 32 build, epoch := s.host.epoch + 1, staged := [], quiesced := false }
      let value (e : BitVec 32 × BitVec 32 × List Char) : List Byte := leBytes 4 e.1.toNat ++ leBytes 4 e.2.1.toNat ++ e.2.2.flatMap utf8
      let r : State := (Config.imageErrata s.host.staged).foldl (fun s e => s.append 9 (value e) true) { s with host := h }
      Completed { r with host := { r.host with capFver := BitVec.ofNat 32 build ++ (s.host.epoch + 1) } } 4 0 0 (exec .fwact s)))
  ∧ (∀ (s : State), MailboxFree s 5 →
    (s.host.fogstat ≠ 0 → Completed s 5 4 0 (exec .attest s))
    ∧ (s.host.fogstat = 0 → s.host.len.toNat < 32 → Completed s 5 1 0 (exec .attest s))
    ∧ (s.host.fogstat = 0 → 32 ≤ s.host.len.toNat → ∃ t, exec .attest s = .next t
      ∧ t = { s with host := { s.host with
          cmd := 5, busy := false, done := true, code := 0, res := 0, len := 30056, payload := t.host.payload } }
      ∧ (cellsAbove 0 s.host.payload = true → (∀ i, i < 264 → cellGet t.host.payload i = s.report.getD i 0)
        ∧ ∀ i, i < 29792 → cellGet t.host.payload (264 + i) = Config.identitySignature s.host.signKey s.report i)))
  ∧ (∀ (s : State), MailboxFree s 6 →
    (s.host.fogstat ≠ 0 → Completed s 6 4 0 (exec .quiesce s))
    ∧ (s.host.fogstat = 0 → (∀ u ∈ s.me :: s.others, u.holds = false) →
      (s.quiet = true → Completed { s with host := { s.host with quiesced := true } } 6 0 0 (exec .quiesce s))
      ∧ (s.quiet = false → exec .quiesce s = .next { s with host := { s.host with cmd := 6, busy := true, done := false, quiesced := true } })))
  ∧ (∀ (s : State), MailboxFree s 7 →
    (s.host.fogstat ≠ 0 ∨ s.host.quiesced = false → Completed s 7 4 0 (exec .resume s))
    ∧ (s.host.fogstat = 0 → s.host.quiesced = true →
      Completed { s with host := { s.host with quiesced := false, epoch := s.host.epoch + 1 } } 7 0 0 (exec .resume s)))
  ∧ (∀ (s : State) (off : Nat) (v : Word),
    let i := Instr.hostRegisterWrite off (.write v)
    let listed := off = 0 ∨ (0x10 ≤ off ∧ off < 0x38 ∧ off % 8 = 0) ∨ off = 0x38 ∨ (0x8000 ≤ off ∧ off < 0x10000 ∧ off % 8 = 0) ∨ off = 0x12810
      ∨ (0x20000 ≤ off ∧ off < 0x26000 ∧ off % 16 = 0) ∨ (0x26000 ≤ off ∧ off < 0x26300 ∧ off % 8 = 0) ∨ off = 0x26428
      ∨ (0x28000 ≤ off ∧ off < 0x30000 ∧ off % 8 = 0)
    (off = 0 → s.host.busy = true → exec i s = .next s)
    ∧ (off = 0 → s.host.busy = false → ∀ p ∈ [((1 : BitVec 8), Instr.dstart), (2, .inval), (3, .fwstage), (4, .fwact), (5, .attest), (6, .quiesce),
        (7, .resume), (8, .mailboxReset)], v.setWidth 8 = p.1 → exec i s = exec p.2 s)
    ∧ (off = 0 → s.host.busy = false → (v.setWidth 8 = 0#8 ∨ 8 < (v.setWidth 8).toNat) → exec i s = exec (.unknownCommand (v.setWidth 8)) s)
    ∧ (∀ k, (hk : k < 5) → off = 0x10 + 8 * k → ∃ t, exec i s = .next t ∧ t = { s with host := { s.host with args := t.host.args } }
      ∧ ∀ j, (hj : j < 5) → t.host.args[j] = if j = k then v else s.host.args[j])
    ∧ (off = 0x38 → exec i s = .next { s with host := { s.host with len := v.setWidth 16 } })
    ∧ (0x8000 ≤ off → off < 0x10000 → off % 8 = 0 → ∃ t, exec i s = .next t ∧ t = { s with host := { s.host with payload := t.host.payload } }
      ∧ (cellsAbove 0 s.host.payload = true → ∀ a, cellGet t.host.payload a =
          if off - 0x8000 ≤ a ∧ a < off - 0x8000 + 8 then v.extractLsb' (8 * (a - (off - 0x8000))) 8 else cellGet s.host.payload a))
    ∧ (0x28000 ≤ off → off < 0x30000 → off % 8 = 0 → ∃ t, exec i s = .next t ∧ t = { s with host := { s.host with token := t.host.token } }
      ∧ (cellsAbove 0 s.host.token = true → ∀ a, cellGet t.host.token a =
          if off - 0x28000 ≤ a ∧ a < off - 0x28000 + 8 then v.extractLsb' (8 * (a - (off - 0x28000))) 8 else cellGet s.host.token a))
    ∧ (off = 0x12810 → exec i s = exec (.plimWrite (v.setWidth 32)) s)
    ∧ (∀ core, core < 1536 → off = 0x20000 + 16 * core →
      let s1 : State := { s with cores := s.cores.map (fun c => if c.core = core then { c with cx := v.extractLsb' 4 2 } else c) }
      (s.host.unlocked = false → exec i s = .next s)
      ∧ (s.host.unlocked = true → (∃ c ∈ s.cores, c.core = core) →
        exec i s = exec (if v.getLsbD 1 then .debugStep core (v.extractLsb' 4 2).toNat else .debugHalt core (v.getLsbD 0)) s1))
    ∧ (∀ cl, cl < 96 → off = 0x26000 + 8 * cl → exec i s = exec (.cedbgPause cl (v.getLsbD 0)) s)
    ∧ (off = 0x26428 → exec i s = if v.getLsbD 0 then exec .dbggo s else .next s)
    ∧ (¬ listed → exec i s = .next s))
  ∧ ∀ (s : State) (off : Nat),
    let i := Instr.hostRegisterWrite off (.read false)
    let reads (v : BitVec 32) : Prop := exec i s = .next (hostReads s (leBytes 4 v.toNat))
    (off = 0 → reads (s.host.cmd.setWidth 32))
    ∧ (off = 8 → reads (0#24 ++ s.host.code ++ BitVec.ofBool s.host.done ++ BitVec.ofBool s.host.busy))
    ∧ (off = 12 → reads s.host.res)
    ∧ (off = 0x38 → reads (s.host.len.setWidth 32))
    ∧ (0x8000 ≤ off → off < 0x10000 → off % 4 = 0 →
      exec i s = .next (hostReads s ((List.range 4).map (fun k => cellGet s.host.payload (off - 0x8000 + k)))))
    ∧ (∀ d n, d < 8 → n < 64 → off = 0x10000 + 0x400 * d + 4 * n → reads (s.sensorWord d n))
    ∧ (∀ d n, d < 4 → n < 16 → off = 0x12000 + 0x100 * d + 4 * n → reads (s.sensorWord (8 + d) n))
    ∧ (∀ d, (hd : d < 8) → off = 0x10108 + 0x400 * d → reads (s.power.volt[d].setWidth 32))
    ∧ (∀ d, d < 8 → (off = 0x10110 + 0x400 * d → exec i s = exec (.energyReadLow d) s)
      ∧ (off = 0x10114 + 0x400 * d → exec i s = exec (.energyReadHigh d) s)
      ∧ (off = 0x10110 + 0x400 * d → exec (.hostRegisterWrite off (.read true)) s = exec (.energyRead64 d) s))
    ∧ (∀ d c, c < 5 → (d < 8 → off = 0x10120 + 0x400 * d + 4 * c → exec i s = exec (.errorCounterRead d c) s)
      ∧ (8 ≤ d → d < 12 → off = 0x12060 + 0x100 * (d - 8) + 4 * c → exec i s = exec (.errorCounterRead d c) s))
    ∧ (off = 0x12810 → reads (BitVec.ofNat 32 s.power.plim))
    ∧ (off = 0x12818 → reads (BitVec.ofNat 32 s.power.govn))
    ∧ (off = 0x26420 → reads ((BitVec.ofBool s.host.unlocked).setWidth 32))
    ∧ (off = 0x26428 ∨ off = 0x2642C → reads 0)

/-- 04 R111, R112, 20 R353, R354, R366 to R368, R370 to R373: the debug registers, the unlock, the resets, the foghorn, and the host's accesses to
memory. Debug writes are ignored until the unlock. Units that firmware's fence records name are fenced by a reset. The signature failures of a boot count as
R367 says; the third in a row sounds the foghorn. The model's choices: a boot outside recovery that verifies clears the count, and recovery keeps it and the
lantern records; what self-test finds, and whether an image in flash verifies, are free values; the backup is not tried after the third failure, and a boot
that has stopped ignores DBGGO (log 32); that the host's memory is what the host window shows, and that a snoop takes its line (log 34). -/
def Obligations.HostAndResets : Prop :=
  (∀ (s : State) (core ctx cl : Nat) (v : Bool),
    let calm := (s.me :: s.others).Pairwise (fun a b => a.tid ≠ b.tid)
      ∧ ∀ u ∈ s.me :: s.others, u.core = core → u.fault = none ∧ ∀ w, u.wait = some w → w.done = none
    (s.host.unlocked = false → ∀ i ∈ [Instr.debugHalt core v, .debugStep core ctx, .cedbgPause cl v], exec i s = .next s)
    ∧ (s.host.unlocked = true → core < 1536 →
      (∃ t, exec (.debugHalt core true) s = .next t ∧ t = { s with cores := t.cores }
        ∧ t.halted core = true ∧ ∀ k, k ≠ core → t.halted k = s.halted k)
      ∧ (calm → ∃ t, exec (.debugHalt core false) s = .next t ∧ t = { s with cores := t.cores }
          ∧ t.halted core = false ∧ ∀ k, k ≠ core → t.halted k = s.halted k)
      ∧ (ctx < 4 → calm → ∃ t, exec (.debugStep core ctx) s = .next t ∧ t = { s with cores := t.cores } ∧ t.halted core = true
          ∧ (∃ c ∈ t.cores, c.core = core ∧ c.stepping = true ∧ c.cx = BitVec.ofNat 2 ctx) ∧ ∀ k, k ≠ core → t.halted k = s.halted k))
    ∧ (s.host.unlocked = true → exec (.cedbgPause cl v) s = .next (withClusterBy s cl (fun c => { c with pause := v }))))
  ∧ (∀ (s : State),
    let head := (List.range 16).map Config.serialByte ++ (List.range 32).map (Config.nonceByte s.host.nonces) ++ leBytes 8 0
    let at' (a k : Nat) : List Byte := (List.range k).map (fun i => cellGet s.host.token (a + i))
    let good := at' 0 56 = head ∧ Config.signatureOk 2 head (at' 56 29792) = true
    (s.host.stopped = true → exec .dbggo s = .next s)
    ∧ (s.host.stopped = false → good → exec .dbggo s = .next { s with host := { s.host with nonces := s.host.nonces + 1, unlocked := true } })
    ∧ (s.host.stopped = false → ¬ good → ∃ t, exec .dbggo s = .next t ∧ AfterReset { s with host := { s.host with nonces := s.host.nonces + 1 } } t
      ∧ t.host.fogstat = s.host.fogstat ||| 8 ∧ t.host.keyErased = true ∧ t.host.nonces = s.host.nonces + 1))
  ∧ (∀ (s : State),
    let keys (t : State) : Prop := t.host.fogstat = s.host.fogstat ∧ t.host.keyErased = s.host.keyErased ∧ t.host.seed = s.host.seed
      ∧ t.host.signKey = if s.host.fogstat = 0 then privateKey s.host.seed else []
    (BootVerifies s → ∃ t, exec .coldReset s = .next t ∧ AfterReset s t ∧ keys t ∧ t.host.epoch = 0 ∧ t.power.energy = State.reset.power.energy)
    ∧ (BootVerifies s → s.powered = true → ∃ t, exec .warmReset s = .next t ∧ AfterReset s t ∧ keys t ∧ t.host.epoch = s.host.epoch
      ∧ t.power.energy = s.power.energy)
    ∧ (s.powered = false → exec .warmReset s = .next s)
    ∧ (BootVerifies s → MailboxFree s 8 → ∃ t, exec .mailboxReset s = .next t ∧ AfterReset s t ∧ keys t ∧ t.host.epoch = s.host.epoch
      ∧ t.power.energy = s.power.energy)
    ∧ (s.host.fogstat = 0 → ¬ BootVerifies s →
      let first := StageVerifies (s.host.boots + 1) 1 s.host.sigfail.toNat
      (first ∨ s.host.sigfail = 0 → ∃ t, exec .coldReset s = .next t ∧ t.host.sigfail = 2 ∧ t.host.stopped = true ∧ t.host.active = false
        ∧ t.host.fogstat = 0 ∧ t.host.seed = s.host.seed ∧ HostMemoryLeft s t ∧ t.others = [] ∧ t.launches = [])
      ∧ (¬ first → s.host.sigfail ≠ 0 → ∃ t, exec .coldReset s = .next t ∧ t.host.fogstat = 16 ∧ t.host.keyErased = true ∧ t.host.seed = []
        ∧ t.host.sigfail = 3 ∧ HostMemoryLeft s t ∧ t.others = [] ∧ t.launches = []))
    ∧ (s.host.fogstat = 0 → BootVerifies s →
      let gone (unit : Nat) := unit ∈ s.power.fences.map (·.1) ∨ unit ∈ Config.selfTest (s.host.boots + 1)
      (∀ core, core < 1536 → gone (2 ^ 32 + core) → ∃ t, exec .coldReset s = .next t ∧ t.coreLanes core = 0)
      ∧ (∀ lane, lane < 12288 → gone lane → ∃ t, exec .coldReset s = .next t ∧ (t.coreLanes (lane / 8)).getLsbD (lane % 8) = false)
      ∧ (∀ link, link < 32 → gone (5 * 2 ^ 32 + link) → ∃ t, exec .coldReset s = .next t ∧ t.fab.fenced.getLsbD link = true)))
  ∧ (∀ (s : State) (causes : BitVec 5),
    (causes = 0 ∨ s.powered = false → exec (.foghorn causes) s = .next s)
    ∧ (causes ≠ 0 → s.powered = true → ∃ t, exec (.foghorn causes) s = .next t ∧ AfterReset s t
      ∧ t.host.fogstat = s.host.fogstat ||| causes ∧ t.host.keyErased = true ∧ t.host.seed = [] ∧ t.host.signKey = []))
  ∧ ∀ (s : State) (addr line : Nat) (data : List Byte),
    let up := s.host.fogstat = 0 ∧ s.host.active = true
    let responds (off : Bool) : State := { s with host := { s.host with memOff := off } }
    let usable := up ∧ ∀ i, i < data.length → s.spot (addr + i) = .hbm
    let table := up ∧ ∀ i, i < data.length → s.spot (addr + i) = .cap
    let kept := up ∧ ∀ i, i < data.length → s.spot (addr + i) = .firmware
    let outside := s.host.fogstat ≠ 0 ∨ up ∧ ∃ i, i < data.length ∧ (s.spot (addr + i) = .host ∨ s.spot (addr + i) = .hole)
    let shared := s.host.fogstat = 0 ∧ s.spot (64 * line) = .host
    (usable → exec (.hostMemAccess addr data false) s = .next (hostReads (responds false) (s.mem.bytesAt addr data.length)))
    ∧ (usable → s.mem.wf = true → ∃ t, exec (.hostMemAccess addr data true) s = .next t ∧ t = { responds false with mem := t.mem } ∧ Stored s t addr data)
    ∧ (table → exec (.hostMemAccess addr data false) s = .next (hostReads (responds false)
          ((List.range data.length).map (fun i => s.capByte (addr + i - s.capBase))))
      ∧ exec (.hostMemAccess addr data true) s = .next (responds false))
    ∧ (kept → exec (.hostMemAccess addr data false) s = .next (hostReads (responds false) (List.replicate data.length 0))
      ∧ exec (.hostMemAccess addr data true) s = .next (responds false))
    ∧ (s.host.fogstat = 0 → s.host.active = false → ∀ w, exec (.hostMemAccess addr data w) s = .next (responds true))
    ∧ (outside → ∀ w, exec (.hostMemAccess addr data w) s = .next s)
    ∧ (shared → data.length = 64 → s.mem.wf = true → ∃ t, exec (.hostSnoop line data) s = .next t ∧ t = { s with mem := t.mem }
      ∧ Stored s t (64 * line) data ∧ ∀ own, (line, own) ∉ t.mem.hostLines)
    ∧ (¬ shared → exec (.hostSnoop line data) s = .next s)

/-- 21 R376, R377, R380, R381, R383, R384, R385, R393, R394, R396: links and ports, and the packets of other packages that write, add and read. A flit
is delivered once, in order; a port counts what fails its checks. The model's choices (log 29): training starts the numbering at 0 and empties the ring;
LINK_TRAINED names ports as 32 to 41; what packet fits the 240 bytes of a flit, and that one which does not is ignored. A fenced link is not trained (log
32). The writes and reductions are stated where no marker waits. -/
def Obligations.FabricEvents : Prop :=
  (∀ (s : State) (link : Nat) (seq : BitVec 16) (src dst : Nat) (p : Packet) (l : Link), s.fab.links[link]? = some l →
    let i (good : Bool) := Instr.flitReceive link seq good src dst p
    (l.state ≠ 2 ∨ packetFits p = false → ∀ g, exec (i g) s = .next s)
    ∧ (l.state = 2 → packetFits p = true → seq = l.expect →
      let took := linkBy s link (fun l => { l with expect := l.expect + 1, nak := none })
      (dst = s.pkgnum.toNat → exec (i true) s = .next { took with fab := { took.fab with inbox := s.fab.inbox ++ [(src, p)] } })
      ∧ (dst ≠ s.pkgnum.toNat → exec (i true) s = .next ((took.sendFrom (some (link / 4)) src dst p).getD took)))
    ∧ (l.state = 2 → seq ≠ l.expect → (l.expect - seq).toNat < 32768 → exec (i true) s = .next s)
    ∧ (l.state = 2 → packetFits p = true → (seq ≠ l.expect → 32768 ≤ (l.expect - seq).toNat → exec (i true) s = .next (linkBy s link (fun l => { l with nak := some l.expect })))
      ∧ exec (i false) s = .next (linkBy s link (fun l => { l with nak := some l.expect }))))
  ∧ (∀ (s : State) (link : Nat) (seq : BitVec 16) (l : Link), s.fab.links[link]? = some l →
    let i := Instr.nakReceive link seq
    let sat (n : BitVec 16) : BitVec 16 := if n = BitVec.allOnes 16 then n else n + 1
    let counted := linkBy s link (fun l => { l with naks := sat l.naks })
    (∀ newer f older, l.ring = newer ++ f :: older → (∀ x ∈ newer, x.1 ≠ seq) → f.1 = seq →
      exec i s = .next { counted with fab := { counted.fab with outbox := s.fab.outbox ++ (f :: newer.reverse).map (fun x => x.2) } })
    ∧ ((∀ x ∈ l.ring, x.1 ≠ seq) → seq = l.nextSeq → exec i s = .next counted)
    ∧ ((∀ x ∈ l.ring, x.1 ≠ seq) → seq ≠ l.nextSeq →
      exec i s = .next (linkBy s link (fun l => { l with naks := sat l.naks, rtrn := sat l.rtrn, lossy := true, state := 1 }))))
  ∧ (∀ (s : State) (n : Nat),
    (n < 32 → exec (.linkTrained n) s = .next (if s.fab.fenced.getLsbD n then s else linkBy s n (fun l =>
        { l with state := 2, insvc := true, nextSeq := 0, ring := [], expect := 0, nak := none }))
      ∧ exec (.linkOutOfService false n) s = .next (linkBy s n (fun l => { l with state := 0, insvc := false })))
    ∧ (∀ h : n < 10, exec (.linkTrained (32 + n)) s =
        .next { s with fab := { s.fab with ports := s.fab.ports.set n { (s.fab.ports[n]'h) with up := true } } }
      ∧ exec (.linkOutOfService true n) s =
        .next { s with fab := { s.fab with ports := s.fab.ports.set n { (s.fab.ports[n]'h) with up := false } } }
      ∧ ∀ (src : Nat) (p : Packet),
        ((s.fab.ports[n]'h).up = false ∨ packetFits p = false → ∀ g, exec (.datagramReceive n g src p) s = .next s)
        ∧ ((s.fab.ports[n]'h).up = true → packetFits p = true →
          exec (.datagramReceive n true src p) s = .next { s with fab := { s.fab with inbox := s.fab.inbox ++ [(src, p)] } }
          ∧ ∃ t, exec (.datagramReceive n false src p) s = .next t ∧ t = { s with fab := { s.fab with ports := t.fab.ports } }
            ∧ t.fab.ports = s.fab.ports.set n { (s.fab.ports[n]'h) with
                drop := if (s.fab.ports[n]'h).drop = BitVec.allOnes 32 then (s.fab.ports[n]'h).drop else (s.fab.ports[n]'h).drop + 1 })))
  ∧ (∀ (s : State) (idx src tid ep : Nat) (bytes : List MaskedByte) (poison : List Nat),
    s.fab.inbox[idx]? = some (src, .write tid ep none bytes poison) → s.fab.markers = [] →
    ∃ t, exec (.remoteWritePerform idx) s = .next t
      ∧ t = { taken s idx with mem := t.mem, fab := { (taken s idx).fab with counts := t.fab.counts } }
      ∧ CountsOne s t src tid ep
      ∧ (s.mem.wf = true → ∀ a, t.mem.byte a = if s.spot a = .hbm then byteAfter bytes a (s.mem.byte a) else s.mem.byte a)
      ∧ ∀ w ∈ poison, s.spot (8 * w) = .hbm → w ∈ t.mem.poison)
  ∧ (∀ (s : State) (idx src tid ep addr : Nat) (op : ROp) (ty : RTy) (v : Word),
    s.fab.inbox[idx]? = some (src, .red tid ep none addr op ty v) → s.fab.markers = [] →
    let n := Machine.RTy.bytes ty
    ∃ t, exec (.reductionArrive idx) s = .next t
      ∧ t = { taken s idx with mem := t.mem, fab := { (taken s idx).fab with counts := t.fab.counts, rdrop := t.fab.rdrop } }
      ∧ CountsOne s t src tid ep
      ∧ (s.spot addr ≠ .hbm ∨ s.windowFor addr ty = false → t.mem = s.mem
        ∧ t.fab.rdrop = if s.fab.rdrop = BitVec.allOnes 32 then s.fab.rdrop else s.fab.rdrop + 1)
      ∧ (s.spot addr = .hbm → s.windowFor addr ty = true → t.fab.rdrop = s.fab.rdrop
        ∧ (s.mem.poisonAt addr n ≠ none → t.mem = s.mem)
        ∧ (s.mem.poisonAt addr n = none → s.mem.wf = true → ∃ l, Stored s t addr l ∧ l.length = n
          ∧ (ty.isFloat = false → op = .add → l = leBytes n (s.mem.number addr n + v.toNat)))))
  ∧ (∀ (s : State) (idx src : Nat) (items : List (Nat × Nat × Nat)) (answers : List (Nat × Option (List (Byte × Bool)))),
    s.fab.inbox[idx]? = some (src, .loadReq items) →
    (answers.map (·.1) = items.map (·.1) ∧ ∀ (k : Nat) (n ser addr size : Nat) (a : Option (List (Byte × Bool))), items[k]? = some (ser, addr, size) →
      answers[k]? = some (n, a) →
      ((∀ i, i < size → s.spot (addr + i) = .hbm) →
        a = some ((List.range size).map (fun i => (s.mem.byte (addr + i), (s.mem.poisonAt (addr + i) 1).isSome))))
      ∧ ((∃ i, i < size ∧ s.spot (addr + i) ≠ .hbm) → a = none)) →
    exec (.remoteLoadRequest idx) s =
      .next ((replyPackets answers.length answers).foldl (fun t r => t.sendOrLose src (.loadReply r)) (taken s idx)))
  ∧ (∀ (answers : List (Nat × Option (List (Byte × Bool)))),
    (replyPackets answers.length answers).flatten = answers
    ∧ ((∀ a ∈ answers, (a.2.getD []).length ≤ 240) → ∀ p ∈ replyPackets answers.length answers, packetFits (.loadReply p) = true))
  ∧ (∀ (s : State) (idx src : Nat) (items : List (Nat × Option (List (Byte × Bool)))), s.fab.inbox[idx]? = some (src, .loadReply items) →
    let landed (r : RemoteLoad) : RemoteLoad :=
      if r.pkg = src ∧ r.reply = .none then
        match items.find? (fun i => i.1 == r.ser) with
        | some (_, some l) => { r with reply := .data l }
        | some (_, none) => { r with reply := .denied }
        | none => r
      else r
    exec (.remoteLoadReply idx) s = .next { taken s idx with
      me := { s.me with remote := s.me.remote.map landed }
      others := s.others.map (fun u => { u with remote := u.remote.map landed })
      clusters := s.clusters.map (fun c => { c with copies := c.copies.map (fun x => { x with remote := x.remote.map landed }) }) })
  ∧ ∀ (s : State) (r : RemoteLoad),
    let due (x : RemoteLoad) : Nat := x.sent + s.me.fto.toNat
    let now := max s.time (due r)
    ((∀ x ∈ s.me.remote, x.reply ≠ .none) → exec (.remoteLoadTimeout s.me.tid) s = .next s)
    ∧ (r ∈ s.me.remote → r.reply = .none → (∀ x ∈ s.me.remote, x.reply = .none → due r ≤ due x) → exec (.remoteLoadTimeout s.me.tid) s =
        .next { s.tick now with me := { s.me with
          remote := s.me.remote.map (fun x => if x.reply = .none ∧ due x ≤ now then { x with reply := .lost } else x) } })

/-- 21 R386 to R393: channels and sweeps. Opening, flags and closing at the sender and at the receiver, and the markers and echoes of sweeps.
What a wait for a packet answers stands in the thread until its instruction is tried again. The model's choices (log 27): a close for an entry that is not
known is answered with nothing missing; MISS saturates; an open without an answer closes with count 0 and its identifier is held back as after a lost
close; a flag that is discarded is reported all the same. The sender and the receiver are stated with the one entry concerned. -/
def Obligations.BeaconEvents : Prop :=
  (∀ (s : State) (idx src chan : Nat), s.fab.inbox[idx]? = some (src, .openReq chan) →
    let rest := s.fab.receivers.filter (fun r => !(r.src == src && r.chan == chan))
    let s1 := taken s idx
    (rest.length < 16384 → exec (.beaconOpenRequest idx) s =
      .next (({ s1 with fab := { s1.fab with receivers := rest ++ [(⟨src, chan, 0, [], none⟩ : Receiver)] } } : State).sendOrLose src (.openReply chan true)))
    ∧ (16384 ≤ rest.length → exec (.beaconOpenRequest idx) s = .next (s1.sendOrLose src (.openReply chan false))))
  ∧ (∀ (s : State) (idx src chan : Nat) (ok : Bool) (c : Sender) (sent : Nat), s.fab.inbox[idx]? = some (src, .openReply chan ok) →
    s.fab.senders = [c] → c.chan = chan → c.pkg = src → c.opened = false → c.tid = s.me.tid → s.me.ask = .openChan chan sent →
    (∀ o ∈ s.others, o.tid ≠ s.me.tid) →
    let s1 := taken s idx
    exec (.beaconOpenReply idx) s = .next { s1 with
      fab := { s1.fab with senders := if ok then [{ c with opened := true, sent := 0 }] else [] }
      me := { s.me with ask := .answered (if ok then BitVec.ofNat 64 c.slot else 0x4000000000050000) } })
  ∧ (∀ (s : State) (c : Sender) (chan sent : Nat), s.me.ask = .openChan chan sent → s.fab.senders = [c] → c.chan = chan →
    (∀ o ∈ s.others, o.tid ≠ s.me.tid) →
    let now := max s.time (sent + s.me.fto.toNat)
    ∃ t, exec (.beaconOpenTimeout s.me.tid) s = .next t
      ∧ t = { s.tick now with fab := t.fab, me := { s.me with ask := .answered 0x4000000000060000 } }
      ∧ t.fab.senders = [] ∧ t.fab.freed = s.fab.freed ++ (if s.me.fto = 0 then [] else [(chan, now + 4 * s.me.fto.toNat)])
      ∧ t.fab.outbox = (s.sendOrLose c.pkg (.close chan 0 s.me.bto.toNat)).fab.outbox)
  ∧ (∀ (s : State) (idx src chan addr bto : Nat) (val : Word) (count : BitVec 32), s.fab.inbox[idx]? = some (src, .flag chan addr val count bto) →
    let i := Instr.beaconFlagArrive idx
    let mine (r : Receiver) : Bool := r.src == src && r.chan == chan
    (s.fab.receivers.any mine = false → ∃ t, exec i s = .next t ∧ FlagLands (taken s idx) t src chan addr val count 0 2)
    ∧ ∀ r, s.fab.receivers = [r] → mine r = true → r.flags = [] → r.close = none →
      ((r.arr - count).toNat < 2147483648 → ∃ t, exec i s = .next t ∧ FlagLands (taken s idx) t src chan addr val count 0 0)
      ∧ (2147483648 ≤ (r.arr - count).toNat → exec i s = .next
          { taken s idx with fab := { (taken s idx).fab with receivers := [{ r with flags := [⟨addr, val, count, bto, s.time⟩] }] } }))
  ∧ (∀ (s : State) (r : Receiver) (f : HeldFlag), s.fab.receivers = [r] → r.flags = [f] → r.close = none →
    let s1 := { s.tick (f.arrived + f.bto) with fab := { s.fab with receivers := [{ r with flags := [] }] } }
    ∃ t, exec (.beaconFlagShort 0) s = .next t ∧ FlagLands s1 t r.src r.chan f.addr f.val f.count (f.count - r.arr).toNat 1)
  ∧ (∀ (s : State) (idx src chan : Nat) (count : BitVec 32) (c : Sender) (pre post : List (BitVec 32 × Nat)) (at' : Nat),
    s.fab.inbox[idx]? = some (src, .flagReport chan count) → s.fab.senders = [c] → c.chan = chan →
    let s1 := taken s idx
    (c.pkg = src → c.flags = pre ++ (count, at') :: post → (∀ f ∈ pre, f.1 ≠ count) → exec (.beaconFlagReport idx) s =
      .next { s1 with fab := { s1.fab with senders := [{ c with flags := pre ++ post }] } })
    ∧ (c.pkg ≠ src → exec (.beaconFlagReport idx) s = .next s1))
  ∧ (∀ (s : State) (c : Sender) (f : BitVec 32 × Nat) (rest : List (BitVec 32 × Nat)), s.fab.senders = [c] → c.tid = s.me.tid → c.flags = f :: rest →
    exec (.flagOutstandingExpiry c.chan) s = .next { s.tick (f.2 + s.me.fto.toNat) with
      fab := { s.fab with senders := [{ c with flags := rest }] } })
  ∧ (∀ (s : State) (idx src chan bto : Nat) (sent : BitVec 32), s.fab.inbox[idx]? = some (src, .close chan sent bto) →
    let i := Instr.beaconCloseRequest idx
    let s1 := taken s idx
    let mine (r : Receiver) : Bool := r.src == src && r.chan == chan
    (s.fab.receivers.any mine = false → exec i s = .next (s1.sendOrLose src (.closeReply chan 0)))
    ∧ ∀ r, s.fab.receivers = [r] → mine r = true → r.flags = [] →
      ((r.arr - sent).toNat < 2147483648 → exec i s =
        .next (({ s1 with fab := { s1.fab with receivers := [] } }).sendOrLose src (.closeReply chan 0)))
      ∧ (2147483648 ≤ (r.arr - sent).toNat → exec i s =
        .next { s1 with fab := { s1.fab with receivers := [{ r with close := some (sent, bto, s.time) }] } }))
  ∧ (∀ (s : State) (r : Receiver) (sent : BitVec 32) (bto arrived : Nat), s.fab.receivers = [r] → r.close = some (sent, bto, arrived) →
    r.flags = [] → 2147483648 ≤ (r.arr - sent).toNat →
    exec (.beaconCloseBto 0) s = .next (({ s.tick (arrived + bto) with fab := { s.fab with receivers := [] } }).sendOrLose
      r.src (.closeReply r.chan (sent - r.arr))))
  ∧ (∀ (s : State) (idx src chan : Nat) (miss : BitVec 32) (c : Sender) (sent at' : Nat), s.fab.inbox[idx]? = some (src, .closeReply chan miss) →
    s.fab.senders = [c] → c.chan = chan → c.pkg = src → c.closing = some sent → c.tid = s.me.tid → s.me.ask = .closeChan chan at' →
    (∀ o ∈ s.others, o.tid ≠ s.me.tid) →
    let s1 := taken s idx
    (miss = 0 → exec (.beaconCloseReply idx) s =
      .next { s1 with fab := { s1.fab with senders := [] }, me := { s.me with ask := .answered 0 } })
    ∧ (miss ≠ 0 → s.me.fto ≠ 0 → exec (.beaconCloseReply idx) s = .next { s1 with
        fab := { s1.fab with senders := [], freed := s.fab.freed ++ [(chan, s.time + 4 * s.me.fto.toNat)] }
        me := { s.me with ask := .answered (BitVec.ofNat 64 (2 + min miss.toNat 16383 * 65536)) } }))
  ∧ (∀ (s : State) (c : Sender) (sent at' : Nat), s.fab.senders = [c] → c.tid = s.me.tid → c.closing = some sent →
    s.me.ask = .closeChan c.chan at' → s.me.fto ≠ 0 → (∀ o ∈ s.others, o.tid ≠ s.me.tid) →
    let now := max s.time (sent + s.me.fto.toNat)
    exec (.beaconCloseTimeout s.me.tid) s = .next { s.tick now with
      fab := { s.fab with senders := [], freed := s.fab.freed ++ [(c.chan, now + 4 * s.me.fto.toNat)] }
      me := { s.me with ask := .answered 1 } })
  ∧ (∀ (s : State) (idx src tid ep count bto : Nat), s.fab.inbox[idx]? = some (src, .marker tid ep count bto) → s.fab.markers = [] →
    let s1 := taken s idx
    (count ≤ sweepCount s.fab.counts src tid ep → exec (.sweepMarkerArrive idx) s = .next (s1.sendOrLose src (.echo tid ep count 0)))
    ∧ (sweepCount s.fab.counts src tid ep < count → exec (.sweepMarkerArrive idx) s =
      .next { s1 with fab := { s1.fab with markers := [⟨src, tid, ep, count, bto, s.time⟩] } }))
  ∧ (∀ (s : State) (idx : Nat) (m : Marker), s.fab.markers[idx]? = some m → exec (.sweepMarkerShort idx) s =
      .next (({ s.tick (m.arrived + m.bto) with
                       fab := { s.fab with markers := s.fab.markers.take idx ++ s.fab.markers.drop (idx + 1) } }).sendOrLose m.src
        (.echo m.tid m.ep m.count (m.count - sweepCount s.fab.counts m.src m.tid m.ep))))
  ∧ (∀ (s : State) (idx src count miss sent : Nat) (left : List Nat) (bad : List (Nat × Nat)),
    s.fab.inbox[idx]? = some (src, .echo s.me.tid s.me.ep count miss) → s.me.ask = .sweeping sent left bad →
    (∀ o ∈ s.others, o.tid ≠ s.me.tid) →
    let s1 := taken s idx
    (src ∈ left → (src, count) ∈ s.me.sweep → exec (.sweepEcho idx) s = .next { s1 with me := { s.me with
        ask := .sweeping sent (left.erase src) (if miss = 0 then bad else bad ++ [(src, 2)]) } })
    ∧ (src ∉ left ∨ (src, count) ∉ s.me.sweep → exec (.sweepEcho idx) s = .next s1))
  ∧ ∀ (s : State) (sent : Nat) (left : List Nat) (bad : List (Nat × Nat)), s.me.ask = .sweeping sent left bad →
    (∀ o ∈ s.others, o.tid ≠ s.me.tid) →
    exec (.sweepTimeout s.me.tid) s = .next { s.tick (sent + s.me.fto.toNat) with
      me := { s.me with ask := .sweeping sent [] (bad ++ left.map (fun p => (p, 1))) } }
end

