-- ==== Sys2Proof/Laws/Memory.lean ====
section
/-!
SUPPORT. Memory: a byte written is the byte read, no other byte changes, and every operation keeps the canonical form.
-/
namespace Sys2Proof.Laws

open Machine

/-- A canonical list stays canonical under a lower bound. -/
theorem cellsAbove_mono {lo lo' : Nat} (h : lo' ≤ lo) : ∀ l : List Host.Cell, cellsAbove lo l = true → cellsAbove lo' l = true
  | [], _ => rfl
  | (b, v) :: r, hl => by
    simp only [cellsAbove, Bool.and_eq_true, decide_eq_true_eq] at hl ⊢
    exact ⟨⟨Nat.le_trans h hl.1.1, hl.1.2⟩, hl.2⟩

/-- Below the first entry every address reads as unlisted. -/
theorem cellGet_below {lo a : Nat} : ∀ l : List Host.Cell, cellsAbove lo l = true → a < lo → cellGet l a = unlisted
  | [], _, _ => rfl
  | (b, v) :: r, hl, ha => by
    simp only [cellsAbove, Bool.and_eq_true, decide_eq_true_eq] at hl
    have h1 : b ≠ a := by omega
    have h2 : a < b := by omega
    simp [cellGet, h1, h2]

/-- Writing a byte keeps the canonical form. -/
theorem cellsAbove_cellSet {lo a : Nat} (v : Byte) (ha : lo ≤ a) :
    ∀ l : List Host.Cell, cellsAbove lo l = true → cellsAbove lo (cellSet l a v) = true
  | [], _ => by
    by_cases hv : v = unlisted <;> simp [cellSet, cellsAbove, hv, ha]
  | (b, w) :: r, hl => by
    have hl' := hl
    simp only [cellsAbove, Bool.and_eq_true, decide_eq_true_eq] at hl
    obtain ⟨⟨hb, hw⟩, hr⟩ := hl
    unfold cellSet
    split
    · rename_i hab
      split
      · exact hl'
      · rename_i hv
        simp only [cellsAbove, Bool.and_eq_true, decide_eq_true_eq]
        exact ⟨⟨ha, by simpa using hv⟩, ⟨by omega, hw⟩, hr⟩
    · split
      · rename_i hab
        split
        · exact cellsAbove_mono (by omega) r hr
        · rename_i hv
          simp only [cellsAbove, Bool.and_eq_true, decide_eq_true_eq]
          exact ⟨⟨ha, by simpa using hv⟩, hab ▸ hr⟩
      · simp only [cellsAbove, Bool.and_eq_true, decide_eq_true_eq]
        exact ⟨⟨hb, hw⟩, cellsAbove_cellSet v (by omega) r hr⟩

/-- Read after write. -/
theorem cellGet_cellSet {lo : Nat} (a c : Nat) (v : Byte) :
    ∀ l : List Host.Cell, cellsAbove lo l = true → cellGet (cellSet l a v) c = if c = a then v else cellGet l c
  | [], _ => by
    by_cases hv : v = unlisted
    · by_cases hc : c = a <;> simp [cellSet, cellGet, hv, hc]
    · by_cases hc : c = a
      · simp [cellSet, cellGet, hv, hc]
      · simp [cellSet, cellGet, hv, hc, Ne.symm hc]
  | (b, w) :: r, hl => by
    have hl' := hl
    simp only [cellsAbove, Bool.and_eq_true, decide_eq_true_eq] at hl
    obtain ⟨⟨hb, hw⟩, hr⟩ := hl
    unfold cellSet
    split
    · rename_i hab
      split
      · rename_i hv
        by_cases hc : c = a
        · have h1 : b ≠ c := by omega
          have h2 : c < b := by omega
          simp [hc, cellGet, hv, hc ▸ h1, hc ▸ h2]
        · simp [hc]
      · by_cases hc : c = a
        · simp [hc, cellGet]
        · rw [cellGet]
          simp only [Ne.symm hc, if_false, hc]
          split
          · rename_i hca
            have h1 : b ≠ c := by omega
            have h2 : c < b := by omega
            simp [cellGet, h1, h2]
          · rfl
    · split
      · rename_i hab
        subst hab
        split
        · rename_i hv
          by_cases hc : c = a
          · simp [hc, hv, cellGet_below r hr (show a < a + 1 by omega)]
          · simp only [hc, if_false, cellGet, Ne.symm hc]
            split
            · exact cellGet_below r hr (by omega)
            · rfl
        · by_cases hc : c = a
          · simp [hc, cellGet]
          · simp [cellGet, hc, Ne.symm hc]
      · rename_i h1 h2
        rw [cellGet, cellGet, cellGet_cellSet a c v r hr]
        by_cases hc : c = a
        · have h3 : b ≠ c := by omega
          have h4 : ¬ c < b := by omega
          simp [hc, hc ▸ h3, hc ▸ h4]
        · simp [hc]

/-- What a byte holds once masked bytes are written in list order (11 R244). -/
def byteOver (bs : List MaskedByte) (a : Nat) (old : Byte) : Byte :=
  bs.foldl (fun v b => if b.addr = a then mergeByte b v else v) old

/-- Writing masked bytes keeps the canonical form, and says what every address reads as. -/
theorem cellsWrite_spec (bs : List MaskedByte) : ∀ l : List Host.Cell, cellsAbove 0 l = true →
    cellsAbove 0 (cellsWrite l bs) = true ∧ ∀ a, cellGet (cellsWrite l bs) a = byteOver bs a (cellGet l a) := by
  induction bs with
  | nil => intro l h; exact ⟨h, fun _ => rfl⟩
  | cons b r ih =>
    intro l h
    obtain ⟨h1, h2⟩ := ih _ (cellsAbove_cellSet (mergeByte b (cellGet l b.addr)) (Nat.zero_le b.addr) l h)
    refine ⟨h1, fun a => ?_⟩
    refine (h2 a).trans ?_
    show byteOver r a _ = byteOver r a (if b.addr = a then mergeByte b (cellGet l a) else cellGet l a)
    rw [cellGet_cellSet b.addr a _ l h]
    by_cases hb : a = b.addr
    · subst hb; simp
    · simp [hb, Ne.symm hb]

theorem cellsWrite_above (bs : List MaskedByte) (l : List Host.Cell) (h : cellsAbove 0 l = true) : cellsAbove 0 (cellsWrite l bs) = true :=
  (cellsWrite_spec bs l h).1

/-- Every operation on memory keeps the canonical form. -/
theorem perform_wf (m : Mem) (who core : Option Nat) (bs : List MaskedByte) (h : m.wf = true) : (m.perform who core bs).wf = true :=
  cellsWrite_above bs m.bytes h

@[simp] theorem setFull_wf (m : Mem) (l : List Nat) : (m.setFull l).wf = m.wf := rfl
@[simp] theorem setEmpty_wf (m : Mem) (l : List Nat) : (m.setEmpty l).wf = m.wf := rfl
@[simp] theorem setPoison_wf (m : Mem) (l : List Nat) : (m.setPoison l).wf = m.wf := rfl
@[simp] theorem dropL1_wf (m : Mem) (c : Nat) : (m.dropL1 c).wf = m.wf := rfl
@[simp] theorem dropLines_wf (m : Mem) (l : List Nat) : (m.dropLines l).wf = m.wf := rfl

@[simp] theorem setFull_byte (m : Mem) (l : List Nat) (a : Nat) : (m.setFull l).byte a = m.byte a := rfl
@[simp] theorem setEmpty_byte (m : Mem) (l : List Nat) (a : Nat) : (m.setEmpty l).byte a = m.byte a := rfl
@[simp] theorem setPoison_byte (m : Mem) (l : List Nat) (a : Nat) : (m.setPoison l).byte a = m.byte a := rfl
@[simp] theorem dropL1_byte (m : Mem) (c a : Nat) : (m.dropL1 c).byte a = m.byte a := rfl
@[simp] theorem dropLines_byte (m : Mem) (l : List Nat) (a : Nat) : (m.dropLines l).byte a = m.byte a := rfl

/-- What every byte reads as after a write is performed. -/
theorem perform_byte (m : Mem) (who core : Option Nat) (bs : List MaskedByte) (h : m.wf = true) (a : Nat) :
    (m.perform who core bs).byte a = byteOver bs a (m.byte a) :=
  (cellsWrite_spec bs m.bytes h).2 a

/-- A byte written whole is the byte. -/
theorem mergeByte_whole (a : Nat) (d old : Byte) : mergeByte ⟨a, d, 0xFF⟩ old = d := by
  show (old &&& ~~~BitVec.allOnes 8) ||| (d &&& BitVec.allOnes 8) = d
  rw [BitVec.and_allOnes, BitVec.not_allOnes, BitVec.and_zero, BitVec.zero_or]

/-- Bytes off the list keep their value. -/
theorem byteOver_off (bs : List MaskedByte) (a : Nat) (h : ∀ b ∈ bs, b.addr ≠ a) (old : Byte) : byteOver bs a old = old := by
  induction bs generalizing old with
  | nil => rfl
  | cons b r ih =>
    show byteOver r a (if b.addr = a then _ else old) = old
    rw [if_neg (h b (by simp))]
    exact ih (fun c hc => h c (by simp [hc])) old

theorem byteOver_append (l r : List MaskedByte) (a : Nat) (old : Byte) : byteOver (l ++ r) a old = byteOver r a (byteOver l a old) := by
  simp [byteOver, List.foldl_append]

/-- Whole bytes from an address read back. -/
theorem byteOver_whole (h a : Nat) (bs : List Byte) (old : Byte) :
    byteOver (wholeBytes h bs) a old = if h ≤ a ∧ a < h + bs.length then bs.getD (a - h) 0 else old := by
  have key : ∀ n, byteOver ((List.range n).map (fun i => (⟨h + i, bs.getD i 0, 0xFF⟩ : MaskedByte))) a old
      = if h ≤ a ∧ a < h + n then bs.getD (a - h) 0 else old := by
    intro n
    induction n with
    | zero => rw [if_neg (by omega)]; rfl
    | succ n ih =>
      rw [List.range_succ, List.map_append, byteOver_append, ih]
      show (if h + n = a then mergeByte ⟨h + n, bs.getD n 0, 0xFF⟩ _ else _) = _
      rw [mergeByte_whole]
      by_cases hn : h + n = a
      · have : h ≤ a ∧ a < h + (n + 1) := by omega
        have e : a - h = n := by omega
        rw [if_pos hn, if_pos this, e]
      · rw [if_neg hn]
        by_cases hc : h ≤ a ∧ a < h + n
        · rw [if_pos hc, if_pos (by omega)]
        · rw [if_neg hc, if_neg (by omega)]
  exact key bs.length

@[simp] theorem leBytes_length : ∀ n v : Nat, (leBytes n v).length = n
  | 0, _ => rfl
  | n + 1, v => by simp [leBytes, leBytes_length n]

/-- Bytes of a number, put together, are the number. -/
theorem leNat_leBytes : ∀ n v : Nat, leNat (leBytes n v) = v % 256 ^ n
  | 0, v => by simp [leBytes, leNat, Nat.mod_one]
  | n + 1, v => by
    simp only [leBytes, leNat, leNat_leBytes n, BitVec.toNat_ofNat]
    rw [show (2 : Nat) ^ 8 = 256 from rfl, Nat.pow_succ', Nat.mod_mul]

end Sys2Proof.Laws
end

