-- ==== Sys2Proof/Laws/State.lean ====
section
/-!
SUPPORT. What each update of the state leaves in every field, so that no proof unfolds a record update.
-/
namespace Sys2Proof.Laws

open Machine

/-! Writing an x register changes the register file alone. -/

@[simp] theorem setX_thread_tid (t : Thread) (r : XReg) (w : Word) : (t.setX r w).tid = t.tid := by unfold Thread.setX; split <;> rfl
@[simp] theorem setX_thread_status (t : Thread) (r : XReg) (w : Word) : (t.setX r w).status = t.status := by unfold Thread.setX; split <;> rfl
@[simp] theorem setX_thread_lid (t : Thread) (r : XReg) (w : Word) : (t.setX r w).lid = t.lid := by unfold Thread.setX; split <;> rfl
@[simp] theorem setX_thread_idx (t : Thread) (r : XReg) (w : Word) : (t.setX r w).idx = t.idx := by unfold Thread.setX; split <;> rfl
@[simp] theorem setX_thread_cluster (t : Thread) (r : XReg) (w : Word) : (t.setX r w).cluster = t.cluster := by unfold Thread.setX; split <;> rfl
@[simp] theorem setX_thread_core (t : Thread) (r : XReg) (w : Word) : (t.setX r w).core = t.core := by unfold Thread.setX; split <;> rfl
@[simp] theorem setX_thread_ctx (t : Thread) (r : XReg) (w : Word) : (t.setX r w).ctx = t.ctx := by unfold Thread.setX; split <;> rfl
@[simp] theorem setX_thread_lmask (t : Thread) (r : XReg) (w : Word) : (t.setX r w).lmask = t.lmask := by unfold Thread.setX; split <;> rfl
@[simp] theorem setX_thread_grantReq (t : Thread) (r : XReg) (w : Word) : (t.setX r w).grantReq = t.grantReq := by unfold Thread.setX; split <;> rfl
@[simp] theorem setX_thread_gangL (t : Thread) (r : XReg) (w : Word) : (t.setX r w).gangL = t.gangL := by unfold Thread.setX; split <;> rfl
@[simp] theorem setX_thread_priv (t : Thread) (r : XReg) (w : Word) : (t.setX r w).priv = t.priv := by unfold Thread.setX; split <;> rfl
@[simp] theorem setX_thread_pc (t : Thread) (r : XReg) (w : Word) : (t.setX r w).pc = t.pc := by unfold Thread.setX; split <;> rfl
@[simp] theorem setX_thread_v (t : Thread) (r : XReg) (w : Word) : (t.setX r w).v = t.v := by unfold Thread.setX; split <;> rfl
@[simp] theorem setX_thread_k (t : Thread) (r : XReg) (w : Word) : (t.setX r w).k = t.k := by unfold Thread.setX; split <;> rfl
@[simp] theorem setX_thread_m (t : Thread) (r : XReg) (w : Word) : (t.setX r w).m = t.m := by unfold Thread.setX; split <;> rfl
@[simp] theorem setX_thread_e (t : Thread) (r : XReg) (w : Word) : (t.setX r w).e = t.e := by unfold Thread.setX; split <;> rfl
@[simp] theorem setX_thread_codebook (t : Thread) (r : XReg) (w : Word) : (t.setX r w).codebook = t.codebook := by unfold Thread.setX; split <;> rfl
@[simp] theorem setX_thread_fz (t : Thread) (r : XReg) (w : Word) : (t.setX r w).fz = t.fz := by unfold Thread.setX; split <;> rfl
@[simp] theorem setX_thread_rm (t : Thread) (r : XReg) (w : Word) : (t.setX r w).rm = t.rm := by unfold Thread.setX; split <;> rfl
@[simp] theorem setX_thread_flags (t : Thread) (r : XReg) (w : Word) : (t.setX r w).flags = t.flags := by unfold Thread.setX; split <;> rfl
@[simp] theorem setX_thread_vl (t : Thread) (r : XReg) (w : Word) : (t.setX r w).vl = t.vl := by unfold Thread.setX; split <;> rfl
@[simp] theorem setX_thread_vtype (t : Thread) (r : XReg) (w : Word) : (t.setX r w).vtype = t.vtype := by unfold Thread.setX; split <;> rfl
@[simp] theorem setX_thread_vstart (t : Thread) (r : XReg) (w : Word) : (t.setX r w).vstart = t.vstart := by unfold Thread.setX; split <;> rfl
@[simp] theorem setX_thread_rows (t : Thread) (r : XReg) (w : Word) : (t.setX r w).rows = t.rows := by unfold Thread.setX; split <;> rfl
@[simp] theorem setX_thread_cols (t : Thread) (r : XReg) (w : Word) : (t.setX r w).cols = t.cols := by unfold Thread.setX; split <;> rfl
@[simp] theorem setX_thread_crew (t : Thread) (r : XReg) (w : Word) : (t.setX r w).crew = t.crew := by unfold Thread.setX; split <;> rfl
@[simp] theorem setX_thread_ce (t : Thread) (r : XReg) (w : Word) : (t.setX r w).ce = t.ce := by unfold Thread.setX; split <;> rfl
@[simp] theorem setX_thread_epc (t : Thread) (r : XReg) (w : Word) : (t.setX r w).epc = t.epc := by unfold Thread.setX; split <;> rfl
@[simp] theorem setX_thread_ecause (t : Thread) (r : XReg) (w : Word) : (t.setX r w).ecause = t.ecause := by unfold Thread.setX; split <;> rfl
@[simp] theorem setX_thread_einfo (t : Thread) (r : XReg) (w : Word) : (t.setX r w).einfo = t.einfo := by unfold Thread.setX; split <;> rfl
@[simp] theorem setX_thread_eaddr (t : Thread) (r : XReg) (w : Word) : (t.setX r w).eaddr = t.eaddr := by unfold Thread.setX; split <;> rfl
@[simp] theorem setX_thread_eslot (t : Thread) (r : XReg) (w : Word) : (t.setX r w).eslot = t.eslot := by unfold Thread.setX; split <;> rfl
@[simp] theorem setX_thread_estream (t : Thread) (r : XReg) (w : Word) : (t.setX r w).estream = t.estream := by unfold Thread.setX; split <;> rfl
@[simp] theorem setX_thread_bto (t : Thread) (r : XReg) (w : Word) : (t.setX r w).bto = t.bto := by unfold Thread.setX; split <;> rfl
@[simp] theorem setX_thread_fto (t : Thread) (r : XReg) (w : Word) : (t.setX r w).fto = t.fto := by unfold Thread.setX; split <;> rfl
@[simp] theorem setX_thread_tvec (t : Thread) (r : XReg) (w : Word) : (t.setX r w).tvec = t.tvec := by unfold Thread.setX; split <;> rfl
@[simp] theorem setX_thread_psup (t : Thread) (r : XReg) (w : Word) : (t.setX r w).psup = t.psup := by unfold Thread.setX; split <;> rfl
@[simp] theorem setX_thread_tip (t : Thread) (r : XReg) (w : Word) : (t.setX r w).tip = t.tip := by unfold Thread.setX; split <;> rfl
@[simp] theorem setX_thread_streams (t : Thread) (r : XReg) (w : Word) : (t.setX r w).streams = t.streams := by unfold Thread.setX; split <;> rfl
@[simp] theorem setX_thread_win (t : Thread) (r : XReg) (w : Word) : (t.setX r w).win = t.win := by unfold Thread.setX; split <;> rfl
@[simp] theorem setX_thread_held (t : Thread) (r : XReg) (w : Word) : (t.setX r w).held = t.held := by unfold Thread.setX; split <;> rfl
@[simp] theorem setX_thread_st (t : Thread) (r : XReg) (w : Word) : (t.setX r w).st = t.st := by unfold Thread.setX; split <;> rfl
@[simp] theorem setX_thread_gq (t : Thread) (r : XReg) (w : Word) : (t.setX r w).gq = t.gq := by unfold Thread.setX; split <;> rfl
@[simp] theorem setX_thread_vals (t : Thread) (r : XReg) (w : Word) : (t.setX r w).vals = t.vals := by unfold Thread.setX; split <;> rfl
@[simp] theorem setX_thread_owed (t : Thread) (r : XReg) (w : Word) : (t.setX r w).owed = t.owed := by unfold Thread.setX; split <;> rfl
@[simp] theorem setX_thread_wait (t : Thread) (r : XReg) (w : Word) : (t.setX r w).wait = t.wait := by unfold Thread.setX; split <;> rfl
@[simp] theorem setX_thread_root (t : Thread) (r : XReg) (w : Word) : (t.setX r w).root = t.root := by unfold Thread.setX; split <;> rfl
@[simp] theorem setX_thread_fault (t : Thread) (r : XReg) (w : Word) : (t.setX r w).fault = t.fault := by unfold Thread.setX; split <;> rfl
@[simp] theorem setX_thread_remote (t : Thread) (r : XReg) (w : Word) : (t.setX r w).remote = t.remote := by unfold Thread.setX; split <;> rfl
@[simp] theorem setX_thread_ask (t : Thread) (r : XReg) (w : Word) : (t.setX r w).ask = t.ask := by unfold Thread.setX; split <;> rfl
@[simp] theorem setX_thread_sweep (t : Thread) (r : XReg) (w : Word) : (t.setX r w).sweep = t.sweep := by unfold Thread.setX; split <;> rfl
@[simp] theorem setX_thread_ep (t : Thread) (r : XReg) (w : Word) : (t.setX r w).ep = t.ep := by unfold Thread.setX; split <;> rfl
@[simp] theorem setX_thread_level (t : Thread) (r : XReg) (w : Word) : (t.setX r w).level = t.level := by unfold Thread.setX; split <;> rfl
@[simp] theorem setX_thread_launchLevel (t : Thread) (r : XReg) (w : Word) : (t.setX r w).launchLevel = t.launchLevel := by unfold Thread.setX; split <;> rfl
@[simp] theorem setX_thread_wantLevel (t : Thread) (r : XReg) (w : Word) : (t.setX r w).wantLevel = t.wantLevel := by unfold Thread.setX; split <;> rfl
@[simp] theorem setX_thread_hafn (t : Thread) (r : XReg) (w : Word) : (t.setX r w).hafn = t.hafn := by unfold Thread.setX; split <;> rfl
@[simp] theorem setX_thread_levelSince (t : Thread) (r : XReg) (w : Word) : (t.setX r w).levelSince = t.levelSince := by unfold Thread.setX; split <;> rfl
@[simp] theorem setX_thread_placedAt (t : Thread) (r : XReg) (w : Word) : (t.setX r w).placedAt = t.placedAt := by unfold Thread.setX; split <;> rfl
@[simp] theorem setX_thread_passed (t : Thread) (r : XReg) (w : Word) : (t.setX r w).passed = t.passed := by unfold Thread.setX; split <;> rfl
@[simp] theorem setX_thread_lastCore (t : Thread) (r : XReg) (w : Word) : (t.setX r w).lastCore = t.lastCore := by unfold Thread.setX; split <;> rfl
@[simp] theorem setX_thread_wasPlaced (t : Thread) (r : XReg) (w : Word) : (t.setX r w).wasPlaced = t.wasPlaced := by unfold Thread.setX; split <;> rfl
@[simp] theorem setX_thread_carry (t : Thread) (r : XReg) (w : Word) : (t.setX r w).carry = t.carry := by unfold Thread.setX; split <;> rfl
@[simp] theorem setX_thread_iw (t : Thread) (r : XReg) (w : Word) : (t.setX r w).iw = t.iw := by unfold Thread.setX; split <;> rfl
@[simp] theorem setX_thread_only1 (t : Thread) (r : XReg) (w : Word) : (t.setX r w).only1 = t.only1 := by unfold Thread.setX; split <;> rfl
@[simp] theorem setX_thread_dep (t : Thread) (r : XReg) (w : Word) : (t.setX r w).dep = t.dep := by unfold Thread.setX; split <;> rfl
@[simp] theorem setX_thread_need (t : Thread) (r : XReg) (w : Word) : (t.setX r w).need = t.need := by unfold Thread.setX; split <;> rfl
@[simp] theorem setX_thread_exiting (t : Thread) (r : XReg) (w : Word) : (t.setX r w).exiting = t.exiting := by unfold Thread.setX; split <;> rfl
@[simp] theorem setX_thread_imgBad (t : Thread) (r : XReg) (w : Word) : (t.setX r w).imgBad = t.imgBad := by unfold Thread.setX; split <;> rfl
@[simp] theorem setX_thread_due (t : Thread) (r : XReg) (w : Word) : (t.setX r w).due = t.due := by unfold Thread.setX; split <;> rfl
@[simp] theorem setX_thread_before (t : Thread) (r : XReg) (w : Word) : (t.setX r w).before = t.before := by unfold Thread.setX; split <;> rfl
@[simp] theorem setX_thread_cbk (t : Thread) (r : XReg) (w : Word) : (t.setX r w).cbk = t.cbk := by unfold Thread.setX; split <;> rfl

@[simp] theorem setX_me (s : State) (r : XReg) (w : Word) : (s.setX r w).me = s.me.setX r w := rfl
@[simp] theorem setX_others (s : State) (r : XReg) (w : Word) : (s.setX r w).others = s.others := rfl
@[simp] theorem setX_mem (s : State) (r : XReg) (w : Word) : (s.setX r w).mem = s.mem := rfl
@[simp] theorem setX_time (s : State) (r : XReg) (w : Word) : (s.setX r w).time = s.time := rfl
@[simp] theorem setX_pkgnum (s : State) (r : XReg) (w : Word) : (s.setX r w).pkgnum = s.pkgnum := rfl
@[simp] theorem setX_slack (s : State) (r : XReg) (w : Word) : (s.setX r w).slack = s.slack := rfl
@[simp] theorem setX_nextTid (s : State) (r : XReg) (w : Word) : (s.setX r w).nextTid = s.nextTid := rfl
@[simp] theorem setX_nextLid (s : State) (r : XReg) (w : Word) : (s.setX r w).nextLid = s.nextLid := rfl
@[simp] theorem setX_launches (s : State) (r : XReg) (w : Word) : (s.setX r w).launches = s.launches := rfl
@[simp] theorem setX_crews (s : State) (r : XReg) (w : Word) : (s.setX r w).crews = s.crews := rfl
@[simp] theorem setX_cores (s : State) (r : XReg) (w : Word) : (s.setX r w).cores = s.cores := rfl
@[simp] theorem setX_clusters (s : State) (r : XReg) (w : Word) : (s.setX r w).clusters = s.clusters := rfl
@[simp] theorem setX_chiplets (s : State) (r : XReg) (w : Word) : (s.setX r w).chiplets = s.chiplets := rfl
@[simp] theorem setX_fab (s : State) (r : XReg) (w : Word) : (s.setX r w).fab = s.fab := rfl
@[simp] theorem setX_power (s : State) (r : XReg) (w : Word) : (s.setX r w).power = s.power := rfl
@[simp] theorem setX_host (s : State) (r : XReg) (w : Word) : (s.setX r w).host = s.host := rfl
@[simp] theorem setX_powered (s : State) (r : XReg) (w : Word) : (s.setX r w).powered = s.powered := rfl
@[simp] theorem setX_agenda (s : State) (r : XReg) (w : Word) : (s.setX r w).agenda = s.agenda := rfl
@[simp] theorem setX_turn (s : State) (r : XReg) (w : Word) : (s.setX r w).turn = s.turn := rfl
@[simp] theorem setX_lag (s : State) (r : XReg) (w : Word) : (s.setX r w).lag = s.lag := rfl
@[simp] theorem setX_pace (s : State) (r : XReg) (w : Word) : (s.setX r w).pace = s.pace := rfl
@[simp] theorem setX_fresh (s : State) (r : XReg) (w : Word) : (s.setX r w).fresh = s.fresh := rfl

@[simp] theorem setPc_me (s : State) (w : Word) : (s.setPc w).me = { s.me with pc := w } := rfl
@[simp] theorem setPc_others (s : State) (w : Word) : (s.setPc w).others = s.others := rfl
@[simp] theorem setPc_mem (s : State) (w : Word) : (s.setPc w).mem = s.mem := rfl
@[simp] theorem setPc_time (s : State) (w : Word) : (s.setPc w).time = s.time := rfl
@[simp] theorem setPc_pkgnum (s : State) (w : Word) : (s.setPc w).pkgnum = s.pkgnum := rfl
@[simp] theorem setPc_slack (s : State) (w : Word) : (s.setPc w).slack = s.slack := rfl
@[simp] theorem setPc_nextTid (s : State) (w : Word) : (s.setPc w).nextTid = s.nextTid := rfl
@[simp] theorem setPc_nextLid (s : State) (w : Word) : (s.setPc w).nextLid = s.nextLid := rfl
@[simp] theorem setPc_launches (s : State) (w : Word) : (s.setPc w).launches = s.launches := rfl
@[simp] theorem setPc_crews (s : State) (w : Word) : (s.setPc w).crews = s.crews := rfl
@[simp] theorem setPc_cores (s : State) (w : Word) : (s.setPc w).cores = s.cores := rfl
@[simp] theorem setPc_clusters (s : State) (w : Word) : (s.setPc w).clusters = s.clusters := rfl
@[simp] theorem setPc_chiplets (s : State) (w : Word) : (s.setPc w).chiplets = s.chiplets := rfl
@[simp] theorem setPc_fab (s : State) (w : Word) : (s.setPc w).fab = s.fab := rfl
@[simp] theorem setPc_power (s : State) (w : Word) : (s.setPc w).power = s.power := rfl
@[simp] theorem setPc_host (s : State) (w : Word) : (s.setPc w).host = s.host := rfl
@[simp] theorem setPc_powered (s : State) (w : Word) : (s.setPc w).powered = s.powered := rfl
@[simp] theorem setPc_agenda (s : State) (w : Word) : (s.setPc w).agenda = s.agenda := rfl
@[simp] theorem setPc_turn (s : State) (w : Word) : (s.setPc w).turn = s.turn := rfl
@[simp] theorem setPc_lag (s : State) (w : Word) : (s.setPc w).lag = s.lag := rfl
@[simp] theorem setPc_pace (s : State) (w : Word) : (s.setPc w).pace = s.pace := rfl
@[simp] theorem setPc_fresh (s : State) (w : Word) : (s.setPc w).fresh = s.fresh := rfl

@[simp] theorem bump_me (s : State) : s.bump.me = { s.me with pc := s.me.pc + 8 } := rfl
@[simp] theorem bump_others (s : State) : s.bump.others = s.others := rfl
@[simp] theorem bump_mem (s : State) : s.bump.mem = s.mem := rfl
@[simp] theorem bump_time (s : State) : s.bump.time = s.time := rfl
@[simp] theorem bump_pkgnum (s : State) : s.bump.pkgnum = s.pkgnum := rfl
@[simp] theorem bump_slack (s : State) : s.bump.slack = s.slack := rfl
@[simp] theorem bump_nextTid (s : State) : s.bump.nextTid = s.nextTid := rfl
@[simp] theorem bump_nextLid (s : State) : s.bump.nextLid = s.nextLid := rfl
@[simp] theorem bump_launches (s : State) : s.bump.launches = s.launches := rfl
@[simp] theorem bump_crews (s : State) : s.bump.crews = s.crews := rfl
@[simp] theorem bump_cores (s : State) : s.bump.cores = s.cores := rfl
@[simp] theorem bump_clusters (s : State) : s.bump.clusters = s.clusters := rfl
@[simp] theorem bump_chiplets (s : State) : s.bump.chiplets = s.chiplets := rfl
@[simp] theorem bump_fab (s : State) : s.bump.fab = s.fab := rfl
@[simp] theorem bump_power (s : State) : s.bump.power = s.power := rfl
@[simp] theorem bump_host (s : State) : s.bump.host = s.host := rfl
@[simp] theorem bump_powered (s : State) : s.bump.powered = s.powered := rfl
@[simp] theorem bump_agenda (s : State) : s.bump.agenda = s.agenda := rfl
@[simp] theorem bump_turn (s : State) : s.bump.turn = s.turn := rfl
@[simp] theorem bump_lag (s : State) : s.bump.lag = s.lag := rfl
@[simp] theorem bump_pace (s : State) : s.bump.pace = s.pace := rfl
@[simp] theorem bump_fresh (s : State) : s.bump.fresh = s.fresh := rfl

/-! The counters of a die. -/

@[simp] theorem withErrors_me (s : State) (die : Nat) (f : Errors → Errors) : (s.withErrors die f).me = s.me := by
  unfold State.withErrors; split <;> rfl
@[simp] theorem withErrors_others (s : State) (die : Nat) (f : Errors → Errors) : (s.withErrors die f).others = s.others := by
  unfold State.withErrors; split <;> rfl
@[simp] theorem withErrors_mem (s : State) (die : Nat) (f : Errors → Errors) : (s.withErrors die f).mem = s.mem := by
  unfold State.withErrors; split <;> rfl
@[simp] theorem withErrors_time (s : State) (die : Nat) (f : Errors → Errors) : (s.withErrors die f).time = s.time := by
  unfold State.withErrors; split <;> rfl
@[simp] theorem withErrors_pkgnum (s : State) (die : Nat) (f : Errors → Errors) : (s.withErrors die f).pkgnum = s.pkgnum := by
  unfold State.withErrors; split <;> rfl
@[simp] theorem withErrors_slack (s : State) (die : Nat) (f : Errors → Errors) : (s.withErrors die f).slack = s.slack := by
  unfold State.withErrors; split <;> rfl
@[simp] theorem withErrors_nextTid (s : State) (die : Nat) (f : Errors → Errors) : (s.withErrors die f).nextTid = s.nextTid := by
  unfold State.withErrors; split <;> rfl
@[simp] theorem withErrors_nextLid (s : State) (die : Nat) (f : Errors → Errors) : (s.withErrors die f).nextLid = s.nextLid := by
  unfold State.withErrors; split <;> rfl
@[simp] theorem withErrors_launches (s : State) (die : Nat) (f : Errors → Errors) : (s.withErrors die f).launches = s.launches := by
  unfold State.withErrors; split <;> rfl
@[simp] theorem withErrors_crews (s : State) (die : Nat) (f : Errors → Errors) : (s.withErrors die f).crews = s.crews := by
  unfold State.withErrors; split <;> rfl
@[simp] theorem withErrors_cores (s : State) (die : Nat) (f : Errors → Errors) : (s.withErrors die f).cores = s.cores := by
  unfold State.withErrors; split <;> rfl
@[simp] theorem withErrors_clusters (s : State) (die : Nat) (f : Errors → Errors) : (s.withErrors die f).clusters = s.clusters := by
  unfold State.withErrors; split <;> rfl
@[simp] theorem withErrors_chiplets (s : State) (die : Nat) (f : Errors → Errors) : (s.withErrors die f).chiplets = s.chiplets := by
  unfold State.withErrors; split <;> rfl
@[simp] theorem withErrors_fab (s : State) (die : Nat) (f : Errors → Errors) : (s.withErrors die f).fab = s.fab := by
  unfold State.withErrors; split <;> rfl
@[simp] theorem withErrors_host (s : State) (die : Nat) (f : Errors → Errors) : (s.withErrors die f).host = s.host := by
  unfold State.withErrors; split <;> rfl
@[simp] theorem withErrors_powered (s : State) (die : Nat) (f : Errors → Errors) : (s.withErrors die f).powered = s.powered := by
  unfold State.withErrors; split <;> rfl
@[simp] theorem withErrors_agenda (s : State) (die : Nat) (f : Errors → Errors) : (s.withErrors die f).agenda = s.agenda := by
  unfold State.withErrors; split <;> rfl
@[simp] theorem withErrors_turn (s : State) (die : Nat) (f : Errors → Errors) : (s.withErrors die f).turn = s.turn := by
  unfold State.withErrors; split <;> rfl
@[simp] theorem withErrors_lag (s : State) (die : Nat) (f : Errors → Errors) : (s.withErrors die f).lag = s.lag := by
  unfold State.withErrors; split <;> rfl
@[simp] theorem withErrors_pace (s : State) (die : Nat) (f : Errors → Errors) : (s.withErrors die f).pace = s.pace := by
  unfold State.withErrors; split <;> rfl
@[simp] theorem withErrors_fresh (s : State) (die : Nat) (f : Errors → Errors) : (s.withErrors die f).fresh = s.fresh := by
  unfold State.withErrors; split <;> rfl

/-! TIME passes: patterns, caps, the governor and the power window follow it; nothing else does. -/

theorem tick_only (s : State) (now : Nat) :
    s.tick now = { s with time := max s.time now, clusters := (s.tick now).clusters, power := (s.tick now).power } := by
  unfold State.tick; dsimp only; repeat' split
  all_goals rfl
@[simp] theorem tick_me (s : State) (now : Nat) : (s.tick now).me = s.me := by rw [tick_only]
@[simp] theorem tick_others (s : State) (now : Nat) : (s.tick now).others = s.others := by rw [tick_only]
@[simp] theorem tick_mem (s : State) (now : Nat) : (s.tick now).mem = s.mem := by rw [tick_only]
@[simp] theorem tick_pkgnum (s : State) (now : Nat) : (s.tick now).pkgnum = s.pkgnum := by rw [tick_only]
@[simp] theorem tick_slack (s : State) (now : Nat) : (s.tick now).slack = s.slack := by rw [tick_only]
@[simp] theorem tick_nextTid (s : State) (now : Nat) : (s.tick now).nextTid = s.nextTid := by rw [tick_only]
@[simp] theorem tick_nextLid (s : State) (now : Nat) : (s.tick now).nextLid = s.nextLid := by rw [tick_only]
@[simp] theorem tick_launches (s : State) (now : Nat) : (s.tick now).launches = s.launches := by rw [tick_only]
@[simp] theorem tick_crews (s : State) (now : Nat) : (s.tick now).crews = s.crews := by rw [tick_only]
@[simp] theorem tick_cores (s : State) (now : Nat) : (s.tick now).cores = s.cores := by rw [tick_only]
@[simp] theorem tick_chiplets (s : State) (now : Nat) : (s.tick now).chiplets = s.chiplets := by rw [tick_only]
@[simp] theorem tick_fab (s : State) (now : Nat) : (s.tick now).fab = s.fab := by rw [tick_only]
@[simp] theorem tick_host (s : State) (now : Nat) : (s.tick now).host = s.host := by rw [tick_only]
@[simp] theorem tick_powered (s : State) (now : Nat) : (s.tick now).powered = s.powered := by rw [tick_only]
@[simp] theorem tick_agenda (s : State) (now : Nat) : (s.tick now).agenda = s.agenda := by rw [tick_only]
@[simp] theorem tick_turn (s : State) (now : Nat) : (s.tick now).turn = s.turn := by rw [tick_only]
@[simp] theorem tick_lag (s : State) (now : Nat) : (s.tick now).lag = s.lag := by rw [tick_only]
@[simp] theorem tick_pace (s : State) (now : Nat) : (s.tick now).pace = s.pace := by rw [tick_only]
@[simp] theorem tick_fresh (s : State) (now : Nat) : (s.tick now).fresh = s.fresh := by rw [tick_only]
@[simp] theorem tick_time (s : State) (now : Nat) : (s.tick now).time = max s.time now := by rw [tick_only]

end Sys2Proof.Laws
end

