-- ==== Sys2Proof/Laws/Answers.lean ====
section
/-!
SUPPORT. What the shared operations answer, each said once: results, traps, scalar accesses, sends.
-/
namespace Sys2Proof.Laws

open Machine Safety

/-- Registers after a write (01 R12). -/
theorem getX_setX (t : Thread) (d : XReg) (w : Word) (r : XReg) : (t.setX d w).getX r = if r = d ∧ r ≠ 0 then w else t.getX r := by
  unfold Thread.setX Thread.getX
  by_cases hd : d = 0
  · subst hd; by_cases h : r = 0 <;> simp [h]
  · by_cases h : r = 0
    · simp [h]
    · simp only [hd, h, if_false, ne_eq, not_false_eq_true, and_true]
      rw [Vector.getElem_set]
      by_cases he : r = d
      · simp [he]
      · have : ¬ d.toNat = r.toNat := fun h => he (BitVec.eq_of_toNat_eq h.symm)
        simp [this, he]

/-- A write changes the register file alone. -/
theorem setX_only_x (t : Thread) (d : XReg) (w : Word) : t.setX d w = { t with x := (t.setX d w).x } := by
  unfold Thread.setX; split <;> rfl

/-- `finish` writes its register and goes on. -/
theorem finish_wrote (s : State) (d : XReg) (w : Word) : Wrote s (finish s d w) d w := by
  refine ⟨_, rfl, ?_, ?_, ?_⟩
  · simp [State.bump, State.setPc, State.setX]
  · intro r; exact getX_setX s.me d w r
  · simp only [State.bump, State.setPc, State.setX]; rw [setX_only_x]

/-- The same from a state that the instruction has changed elsewhere. -/
theorem finish_answers (s s1 : State) (d : XReg) (w : Word) (hx : ∀ r, s1.getX r = s.getX r) (hp : s1.me.pc = s.me.pc) :
    Answers s s1 (finish s1 d w) (s.me.pc + 8) d w := by
  obtain ⟨t, h1, h2, h3, h4⟩ := finish_wrote s1 d w
  exact ⟨t, h1, by rw [h2, hp], fun r => by rw [h3, hx], h4⟩

theorem wrote_of_eq (s : State) (d : XReg) (v w : Word) (h : v = w) : Wrote s (finish s d v) d w := h ▸ finish_wrote s d v

/-- t is s but for the fabric. -/
def OnlyFab (s t : State) : Prop := ∃ f, t = { s with fab := f }

theorem OnlyFab.refl (s : State) : OnlyFab s s := ⟨s.fab, rfl⟩
theorem OnlyFab.trans {s t u : State} (h : OnlyFab s t) (k : OnlyFab t u) : OnlyFab s u := by
  obtain ⟨f, rfl⟩ := h
  obtain ⟨g, rfl⟩ := k
  exact ⟨g, rfl⟩

/-- Sending a packet changes the fabric alone (21 R376). -/
theorem sendFrom_onlyFab (s : State) (via : Option Nat) (src dst : Nat) (p : Packet) (t : State) (h : s.sendFrom via src dst p = some t) : OnlyFab s t := by
  unfold State.sendFrom at h
  repeat' split at h
  all_goals first | (cases h; exact ⟨_, rfl⟩) | cases h

theorem sendOrLose_onlyFab (s : State) (dst : Nat) (p : Packet) : OnlyFab s (s.sendOrLose dst p) := by
  unfold State.sendOrLose State.send
  cases h : s.sendFrom none s.pkgnum.toNat dst p with
  | none => exact OnlyFab.refl s
  | some t => exact sendFrom_onlyFab s _ _ dst p t h

theorem foldl_onlyFab {α : Type} (f : State → α → State) (hf : ∀ s c, OnlyFab s (f s c)) (l : List α) (s : State) :
    OnlyFab s (l.foldl f s) := by
  induction l generalizing s with
  | nil => exact OnlyFab.refl s
  | cons c r ih => exact (hf s c).trans (ih (f s c))

theorem abandonOpen_onlyFab (s : State) : OnlyFab s s.abandonOpen := by
  obtain ⟨f, h⟩ := foldl_onlyFab (fun s (c : Sender) => s.sendOrLose c.pkg (.close c.chan 0 s.me.bto.toNat))
    (fun s c => sendOrLose_onlyFab s _ _) (s.fab.senders.filter (fun c => c.tid == s.me.tid && !c.opened && !c.gone)) s
  exact ⟨_, by unfold State.abandonOpen; dsimp only; rw [h]⟩

/-- Counting an error leaves everything but the counters. -/
theorem withErrors_only_power (s : State) (die : Nat) (f : Errors → Errors) :
    s.withErrors die f = { s with power := (s.withErrors die f).power } := by
  unfold State.withErrors; split <;> rfl

/-- What a fetch finds does not depend on power, heat and errors, or on packets sent since. -/
theorem slotWord_withErrors (s : State) (die : Nat) (f : Errors → Errors) : (s.withErrors die f).slotWord = s.slotWord := by
  rw [withErrors_only_power]; rfl

/-- ESLOT where the word can be fetched (02 R45). -/
theorem slotWord_ok (s : State) (w : Word) (h : s.fetchAt s.me.pc = .ok w) :
    s.slotWord = if w.extractLsb' 62 2 = 1 then (if s.me.only1 then 3 else 2) else 0 := by
  have hp : s.pairAt s.me.pc = (w.extractLsb' 62 2 == 1) := by simp [State.pairAt, h]
  unfold State.slotWord
  rw [h]
  simp only [hp]
  by_cases hw : w.extractLsb' 62 2 = 1
  · cases s.me.only1 <;> simp [hw]
  · have : (w.extractLsb' 62 2 == 1) = false := by simpa using hw
    rw [this, if_neg hw]; simp

/-- SRC 00 leaves the cause code alone in ECAUSE. -/
theorem setWidth_zero_append (c : BitVec 8) : ((0 : BitVec 2) ++ c).setWidth 64 = c.setWidth 64 := by
  revert c; decide

/-- A trap of the access processor that a handler takes (04 R97 to R101). -/
theorem trapA_trapped (s : State) (h : TrapsHandled s) (code : BitVec 8) (detail : BitVec 12) (addr : Word) :
    Trapped s (trapA s code detail addr) code detail addr := by
  obtain ⟨h1, h2⟩ := h
  refine ⟨_, rfl, ?_⟩
  have key : ∀ s0 : State, s0.me = s.me → s0.mem = s.mem → s0.others = s.others → s0.time = s.time → s0.slotWord = s.slotWord →
      ∀ u : State, u = s0.abandonOpen.leaveEngine s0.me.tid → TrapEntered s { u with me := { u.me.freeze with
        status := .running, epc := u.me.pc, ecause := ((0 : BitVec 2) ++ code).setWidth 64, einfo := detail ++ s.me.pc.setWidth 52, eaddr := addr
        eslot := s0.slotWord, win := u.me.freeze.win, estream := 0
        vstart := match (none : Option Nat), u.me.win.head?.bind Entry.rowStop with
          | some n, _ => BitVec.ofNat 64 n
          | none, some n => if u.me.held then u.me.vstart else BitVec.ofNat 64 n
          | none, none => u.me.vstart
        psup := u.me.priv == .sup, tip := true, priv := .sup, only1 := false, exiting := none, pc := u.me.tvec } } code detail addr := by
    intro s0 e1 e2 e3 e4 e5 u hu
    obtain ⟨f, hf⟩ := abandonOpen_onlyFab s0
    rw [hf] at hu
    unfold State.leaveEngine at hu
    have hm : u.me = s.me := by rw [hu]; exact e1
    have hmem : u.mem = s.mem := by rw [hu]; exact e2
    have ho : u.others = s.others := by rw [hu]; exact e3
    have ht : u.time = s.time := by rw [hu]; exact e4
    refine ⟨by simp [hm], rfl, ?_, rfl, by simp [hm, Thread.freeze], by simp [hm], ?_, rfl, rfl, rfl, ?_, ?_, by simp [hm, Thread.freeze],
      by simp [hm, Thread.freeze], by simp [hm, Thread.freeze], by simp [hm, Thread.freeze], by simp [hm, Thread.freeze],
      by simp [hm, Thread.freeze], by simp [hm, Thread.freeze], by simp [hm, Thread.freeze], by simp [hm, Thread.freeze],
      by simp [hm, Thread.freeze], by simp [hm, Thread.freeze], by simp [hm, Thread.freeze], by simp [hm, Thread.freeze], hmem, ho, ht⟩
    · cases hp : s.me.priv <;> simp [hm, hp]
    · exact setWidth_zero_append code
    · intro w hw
      exact e5.trans (slotWord_ok s w hw)
    · intro hr
      simp only [hm, hr]
  unfold State.trapA State.enterTrap
  dsimp only
  generalize hs0 : (if (code == cPoison) = true then s.withErrors (layerOf s.me.core) fun e => { e with cons := satInc e.cons } else s) = s0
  have e : s0.me = s.me ∧ s0.mem = s.mem ∧ s0.others = s.others ∧ s0.time = s.time ∧ s0.slotWord = s.slotWord := by
    rw [← hs0]
    split
    · exact ⟨by simp, by simp, by simp, by simp, slotWord_withErrors s _ _⟩
    · exact ⟨rfl, rfl, rfl, rfl, rfl⟩
  obtain ⟨e1, e2, e3, e4, e5⟩ := e
  rw [if_neg (by rw [e1, h1]; simpa using h2)]
  exact key s0 e1 e2 e3 e4 e5 _ rfl

/-- Bytes performed at a home are stored there, and nowhere else. -/
theorem perform_stored (s t : State) (who core : Option Nat) (h : Nat) (bs : List Byte) (hw : s.mem.wf = true)
    (ht : t.mem = s.mem.perform who core (wholeBytes h bs)) : Stored s t h bs := by
  refine ⟨fun i hi => ?_, fun a ha => ?_⟩
  · rw [ht, perform_byte _ _ _ _ hw, byteOver_whole, if_pos (by omega), Nat.add_sub_cancel_left]
  · rw [ht, perform_byte _ _ _ _ hw, byteOver_whole, if_neg (by omega)]

/-- A translation that a micro-TLB serves moves its entry, and nothing else changes (18 R317). -/
theorem hit_only_tlb (s : State) (lane : Option Nat) (va : Word) :
    s.hit lane va = { s with mem := { s.mem with tlb := (s.hit lane va).mem.tlb } } := by
  unfold State.hit; split <;> rfl

/-- A scalar store that passes its checks at a home of the package. -/
theorem scalarStore_near (s : State) (ea v : Word) (n h : Nat) (x : Xlat) (hx : s.checkAccess .store ea n = .ok x) (hp : x.place = .near h) :
    scalarStore s ea n v = .next (({ s with
      mem := s.mem.perform (some s.me.tid) (some s.me.core) (wholeBytes h (leBytes n v.toNat)) } : State).hit none ea).bump := by
  simp [scalarStore, hx, State.writeAt, hp]

/-- A scalar load that passes its checks at a home of the package. -/
theorem scalarLoad_near (s : State) (d : XReg) (ea : Word) (n h : Nat) (conv : Nat → Word) (x : Xlat) (hx : s.checkAccess .load ea n = .ok x)
    (hp : x.place = .near h) (he : s.mem.isEmptyAt h n = false) (hq : s.mem.poisonAt h n = none) :
    scalarLoad s d ea n conv = finish ((s.afterRead x.cached s.me.need h).hit none ea) d
      (conv (leNat (s.mem.seenBytes (if x.cached then some (s.me.core, s.me.need) else none) h n))) := by
  simp [scalarLoad, hx, State.readAt, hp, he, hq]

/-- A check that fails is the trap it names. -/
theorem scalarLoad_bad (s : State) (d : XReg) (ea : Word) (n : Nat) (conv : Nat → Word) (b : Bad) (hx : s.checkAccess .load ea n = .error b) :
    scalarLoad s d ea n conv = trapA s b.code b.detail ea := by simp [scalarLoad, hx]
theorem scalarStore_bad (s : State) (ea v : Word) (n : Nat) (b : Bad) (hx : s.checkAccess .store ea n = .error b) :
    scalarStore s ea n v = trapA s b.code b.detail ea := by simp [scalarStore, hx]
theorem scalarAtomic_bad (s : State) (d : XReg) (ea : Word) (n : Nat) (f : Nat → Option Nat) (ret : Nat → Word) (b : Bad)
    (hx : s.checkAccess .atomic ea n = .error b) : scalarAtomic s d ea n f ret = trapA s b.code b.detail ea := by simp [scalarAtomic, hx]

/-- A read-modify-write at a home of the package. -/
theorem scalarAtomic_near (s : State) (d : XReg) (ea : Word) (n h : Nat) (f : Nat → Option Nat) (ret : Nat → Word) (x : Xlat)
    (hx : s.checkAccess .atomic ea n = .ok x) (hp : x.place = .near h) (he : s.mem.isEmptyAt h n = false) (hq : s.mem.poisonAt h n = none) :
    scalarAtomic s d ea n f ret =
      let m := match f (s.mem.number h n) with
        | some v => s.mem.perform (some s.me.tid) none (wholeBytes h (leBytes n v))
        | none => s.mem.holdHost true h
      finish (({ s with mem := m.dropLines [h / 128] } : State).hit none ea) d (ret (s.mem.number h n)) := by
  simp only [scalarAtomic, hx, hp, he, hq, Bool.false_eq_true, if_false, Option.isSome_none]
    <;> cases f (s.mem.number h n) <;> rfl

end Sys2Proof.Laws
end

