-- ==== Sys2Proof/Laws/Encoding.lean ====
section
/-!
SUPPORT. Fields of words put together from fields, and the codes of the small syntactic types: what the round trips of the encoder rest on.
-/
namespace Sys2Proof.Laws

/-- A slice of the upper or the lower part of two bit vectors put side by side; the width of the whole need not be in the shape n + m. -/
theorem slice_high {n m : Nat} (a : BitVec n) (b : BitVec m) (i l : Nat) (h : m ≤ i) :
    @BitVec.extractLsb' (no_index (n + m)) i l (a ++ b) = a.extractLsb' (i - m) l := by
  apply BitVec.eq_of_getLsbD_eq; intro j hj
  have h1 : ¬ (i + j < m) := by omega
  have h2 : i + j - m = i - m + j := by omega
  simp [BitVec.getLsbD_append, h1, h2]

theorem slice_low {n m : Nat} (a : BitVec n) (b : BitVec m) (i l : Nat) (h : i + l ≤ m) :
    @BitVec.extractLsb' (no_index (n + m)) i l (a ++ b) = b.extractLsb' i l := by
  apply BitVec.eq_of_getLsbD_eq; intro j hj
  have h1 : i + j < m := by omega
  simp [BitVec.getLsbD_append, h1]

theorem bit_high {n m : Nat} (a : BitVec n) (b : BitVec m) (i : Nat) (h : m ≤ i) :
    @BitVec.getLsbD (no_index (n + m)) (a ++ b) i = a.getLsbD (i - m) := by
  have h1 : ¬ (i < m) := by omega
  simp [BitVec.getLsbD_append, h1]

theorem bit_low {n m : Nat} (a : BitVec n) (b : BitVec m) (i : Nat) (h : i < m) :
    @BitVec.getLsbD (no_index (n + m)) (a ++ b) i = b.getLsbD i := by
  simp [BitVec.getLsbD_append, h]

/-- The frame of the word of a frame (02 R31 to R34). -/
theorem frameOf_word (f : Frame) : frameOf f.word = .ok f := by
  cases f <;> simp (disch := omega) only [frameOf, Frame.word, slice_high, slice_low] <;> simp

/-- Codes read back. -/
theorem pop_code (p : Pop) : Pop.ofCode p.code = some p := by cases p <;> rfl
theorem rms_code (r : Rms) : Rms.ofCode r.code = some r := by cases r <;> rfl

/-- The slot of the bits of a slot (02 R41). -/
theorem slotOf_bits (s : Slot) : slotOf s.bits = some s := by
  simp (disch := omega) only [slotOf, Slot.bits, slice_high, slice_low]
  simp [pop_code]

end Sys2Proof.Laws
end

