-- ==== Sys2Proof/Laws/Kept.lean ====
section
/-!
SUPPORT. Canonical memory is kept: how the fact goes through updates, folds and the shared operations.
-/
namespace Sys2Proof.Laws

open Machine

/-- Where s has canonical memory, so has t. -/
def Kept (s t : State) : Prop := s.mem.wf = true → t.mem.wf = true

theorem Kept.refl (s : State) : Kept s s := fun h => h
theorem Kept.trans {s t u : State} (h : Kept s t) (k : Kept t u) : Kept s u := fun w => k (h w)
theorem Kept.of_mem {s t : State} (h : t.mem = s.mem) : Kept s t := fun w => by rw [h]; exact w
theorem Kept.of_bytes {s t : State} (h : t.mem.bytes = s.mem.bytes) : Kept s t := fun w => by
  unfold Mem.wf at w ⊢; rw [h]; exact w
theorem Kept.of_onlyFab {s t : State} (h : OnlyFab s t) : Kept s t := by
  obtain ⟨f, rfl⟩ := h; exact fun w => w

theorem Kept.foldl {α : Type} (f : State → α → State) (hf : ∀ s c, Kept s (f s c)) (l : List α) (s : State) : Kept s (l.foldl f s) := by
  induction l generalizing s with
  | nil => exact Kept.refl s
  | cons c r ih => exact (hf s c).trans (ih (f s c))

theorem kept_perform (s : State) (who core : Option Nat) (bs : List MaskedByte) : Kept s { s with mem := s.mem.perform who core bs } :=
  fun w => perform_wf s.mem who core bs w

theorem sendCounted_onlyFab (s : State) (way : Bool) (tid dst : Nat) (mk : Option Nat → Packet) : OnlyFab s (s.sendCounted way tid dst mk) := by
  unfold State.sendCounted
  split
  · exact (sendOrLose_onlyFab s _ _).trans ⟨_, rfl⟩
  · exact ⟨_, rfl⟩

theorem kept_sendMine (s : State) (dst : Nat) (mk : Option Nat → Packet) : Kept s (s.sendMine dst mk) := by
  obtain ⟨f, h⟩ := sendCounted_onlyFab s (s.reaches dst) s.me.tid dst mk
  refine Kept.of_mem ?_
  unfold State.sendMine
  rw [h]

theorem kept_writeAt (s : State) (x : Xlat) (bs : List Byte) : Kept s (s.writeAt x bs) := by
  unfold State.writeAt
  split
  · exact kept_perform s _ _ _
  · exact Kept.refl s
  · exact kept_sendMine s _ _

theorem kept_setX (s : State) (d : XReg) (w : Word) : Kept s (s.setX d w) := Kept.refl s
theorem kept_bump (s : State) : Kept s s.bump := Kept.refl s

end Sys2Proof.Laws
end

