-- ==== Sys2Proof/Tests/Slice0.lean ====
section
/-!
SUPPORT. Tests of the model, from the spec's encodings and worked examples; terms that are not well formed; and for every statement with
hypotheses states that meet them.
-/
namespace Sys2Proof.Tests

-- One proof after another: the kernel evaluations below, side by side, each with a thread's stack, take more memory than a check allows.
set_option Elab.async false

open Machine Safety

/-! ## States to test on -/

/-- A thread that runs at supervisor level on core 0, with a page table that maps VA 0 to 1 TiB to the same addresses (log 10); x1 to x31
hold 0, TVEC is 0x3000. -/
def base : State :=
  let s := State.reset.withFetchWord 64 0x0040000000000000
  { s with me := { s.me with tvec := 0x3000 } }

/-- The same at job level. -/
def job : State := { base with me := { base.me with priv := .job } }

def withX (s : State) (l : List (XReg × Word)) : State := l.foldl (fun s p => s.setX p.1 p.2) s
def put (s : State) (a : Nat) (bs : List Byte) : State := { s with mem := s.mem.perform none none (wholeBytes a bs) }
def putWord (s : State) (a : Nat) (w : Word) : State := put s a (leBytes 8 w.toNat)

/-- The state a step or an instruction answers; `base` where it answers none. -/
def after (o : Out) : State := match o with | .next t => t | _ => base
def answersNext (o : Out) : Bool := match o with | .next _ => true | _ => false

/-- An answer of a check is the one named. -/
def okIs {ε α : Type} [DecidableEq α] (e : Except ε α) (x : α) : Bool := match e with | .ok y => decide (y = x) | .error _ => false
def badIs {ε α : Type} [DecidableEq ε] (e : Except ε α) (x : ε) : Bool := match e with | .ok _ => false | .error y => decide (y = x)
theorem of_okIs {ε α : Type} [DecidableEq α] {e : Except ε α} {x : α} (h : okIs e x = true) : e = .ok x := by
  cases e <;> simp_all [okIs]
theorem of_badIs {ε α : Type} [DecidableEq ε] {e : Except ε α} {x : ε} (h : badIs e x = true) : e = .error x := by
  cases e <;> simp_all [badIs]

/-! ## Terms that are not well formed, one for each check -/

theorem test_wf_good :
    Instr.wf (.ldAcq .pk 1 2 0) = true ∧ Instr.wf (.fence .pk false 2 1) = true ∧ Instr.wf (.drain 7) = true
    ∧ Instr.wf (.vaddFp ⟨.fp32, false⟩ ⟨1, true⟩ .dyn 1 2 (.vec 3)) = true
    ∧ Instr.wf (.pairWord ⟨.addImm, 3, 3, 1⟩ ⟨.vaddF32, 0, 0, 0x400⟩) = true := by refine ⟨?_, ?_, ?_, ?_, ?_⟩ <;> rfl

/-- 03 R75, R92, 11 R256, 15 R282: scopes, queues, path sets and counts that are not assigned. -/
theorem test_wf_scalar :
    Instr.wf (.ldAcq .pd 1 2 0) = false ∧ Instr.wf (.ldAcqN32 .pd 1 2 0) = false ∧ Instr.wf (.stRel .pd 1 2 0) = false
    ∧ Instr.wf (.stRel32 .pd 1 2 0) = false ∧ Instr.wf (.drain 0) = false ∧ Instr.wf (.byarrive 1 2 0) = false
    ∧ Instr.wf (.fence .pd false 1 1) = false ∧ Instr.wf (.fence .co false 0 1) = false ∧ Instr.wf (.fence .co false 1 0) = false
    ∧ Instr.wf (.fencePd false 1 0 1) = false ∧ Instr.wf (.fencePd false 1 1 0) = false := by
  refine ⟨?_, ?_, ?_, ?_, ?_, ?_, ?_, ?_, ?_, ?_, ?_⟩ <;> rfl

/-- 02 R36, 08 R168 to R189, 09 R195, R217, R218, 10 R229 to R235, 18 R322, 21 R395: formats, masks, parts, operations and precisions. -/
theorem test_wf_vector :
    Instr.wf (.vaddFp ⟨.int32, false⟩ ⟨0, false⟩ .dyn 1 2 (.vec 3)) = false
    ∧ Instr.wf (.vaddFp ⟨.fp32, false⟩ ⟨0, true⟩ .dyn 1 2 (.vec 3)) = false
    ∧ Instr.wf (.vaddInt ⟨.fp32, false⟩ ⟨0, false⟩ 1 2 (.vec 3)) = false
    ∧ Instr.wf (.vbcast ⟨.t8, true⟩ ⟨0, false⟩ 1 2) = false
    ∧ Instr.wf (.vcvt ⟨0, false⟩ .dyn 4 ⟨.t8, false⟩ ⟨.fp32, false⟩ 1 2) = false
    ∧ Instr.wf (.vcvt ⟨0, false⟩ .dyn 0 ⟨.k4, false⟩ ⟨.fp32, false⟩ 1 2) = false
    ∧ Instr.wf (.vcvt ⟨0, false⟩ .dyn 0 ⟨.fp32, false⟩ ⟨.fp32, false⟩ 1 2) = false
    ∧ Instr.wf (.vsegmax ⟨.int8, false⟩ 0 1 2) = false
    ∧ Instr.wf (.vsalsel .n2m4 ⟨.fp64, false⟩ ⟨0, false⟩ 1 2 3) = false
    ∧ Instr.wf (.vlds ⟨.f4, false⟩ ⟨0, false⟩ 1 2 3 0) = false
    ∧ Instr.wf (.vgath ⟨.fp64, false⟩ ⟨0, false⟩ 1 2 3 0 512) = false
    ∧ Instr.wf (.vscadd ⟨.t8, false⟩ 0 1 2 3 0 0) = false
    ∧ Instr.wf (.vred .xor ⟨.fp32, false⟩ 0 1 2 3) = false
    ∧ Instr.wf (.vscan .and true ⟨.int32, false⟩ ⟨0, false⟩ 1 2 3) = false
    ∧ Instr.wf (.plpack ⟨.t8, false⟩ 0 false 0 1 2 3 4) = false
    ∧ Instr.wf (.plunpk ⟨0, false⟩ 0 1 2 3) = false
    ∧ Instr.wf (.mma 0 1 false 1 2 3 4) = false ∧ Instr.wf (.mma 1 0 false 1 2 3 4) = false
    ∧ Instr.wf (.rred .min .f32 1 2 0) = false := by
  refine ⟨?_, ?_, ?_, ?_, ?_, ?_, ?_, ?_, ?_, ?_, ?_, ?_, ?_, ?_, ?_, ?_, ?_, ?_, ?_⟩ <;> rfl

/-- The illegal pairs that 02 prints after R46, and slots with a non-zero field that must be zero (R42). -/
theorem test_wf_pairs :
    Instr.wf (.pairWord ⟨.addImm, 4, 4, 1⟩ ⟨.addImm, 4, 5, 2⟩) = false
    ∧ Instr.wf (.pairWord ⟨.vaddF32, 1, 2, 0xC00⟩ ⟨.vmulF32, 5, 6, 0x1C00⟩) = false
    ∧ Instr.wf (.pairWord ⟨.vaddF32, 0, 0, 0x400⟩ ⟨.addImm, 3, 3, 1⟩) = false
    ∧ Instr.wf (.pairWord ⟨.ldI64, 4, 1, 0⟩ ⟨.vstF32, 2, 9, 0⟩) = false
    ∧ Instr.wf (.pairWord ⟨.add, 4, 1, 1⟩ ⟨.li, 5, 0, 1⟩) = false ∧ Instr.wf (.pairWord ⟨.sllImm, 4, 1, 64⟩ ⟨.li, 5, 0, 1⟩) = false
    ∧ Instr.wf (.pairWord ⟨.li, 4, 1, 1⟩ ⟨.li, 5, 0, 1⟩) = false ∧ Instr.wf (.pairWord ⟨.vmv, 4, 1, 1⟩ ⟨.vmv, 7, 2, 0⟩) = false := by
  refine ⟨?_, ?_, ?_, ?_, ?_, ?_, ?_, ?_⟩ <;> rfl

/-- 00 R2, 19 R336 to R343, 20 R356, 21 R377: what an event may name. -/
theorem test_wf_events :
    Instr.wf (.illegalWord 0x0040000000000000) = false ∧ Instr.wf (.laneGroupExecute 0 8) = false ∧ Instr.wf (.laneDeliver 0 8) = false
    ∧ Instr.wf (.matrixEngineStart 1536) = false ∧ Instr.wf (.mmaRow 1536) = false ∧ Instr.wf (.matrixComplete 1536) = false
    ∧ Instr.wf (.streamPrefetch 0 4 0) = false ∧ Instr.wf (.placeThread 96) = false ∧ Instr.wf (.copyStart 96) = false
    ∧ Instr.wf (.weltMergeRow 96) = false ∧ Instr.wf (.awlRowFetch 8 0) = false ∧ Instr.wf (.flashFrame 96) = false
    ∧ Instr.wf (.sensorSample 0 64 0) = false ∧ Instr.wf (.sensorSample 8 16 0) = false ∧ Instr.wf (.sensorSample 12 0 0) = false
    ∧ Instr.wf (.energyUpdate 9 1) = false ∧ Instr.wf (.powerControl 96 true 0 0) = false ∧ Instr.wf (.thermalEmergency 8) = false
    ∧ Instr.wf (.correctedError 12) = false ∧ Instr.wf (.errorCounterRead 0 5) = false ∧ Instr.wf (.debugHalt 1536 true) = false
    ∧ Instr.wf (.debugStep 0 4) = false ∧ Instr.wf (.cedbgPause 96 true) = false ∧ Instr.wf (.unknownCommand 8) = false
    ∧ Instr.wf (.foghorn 0) = false ∧ Instr.wf (.linkTrained 42) = false ∧ Instr.wf (.nakReceive 32 0) = false
    ∧ Instr.wf (.linkOutOfService true 10) = false ∧ Instr.wf (.linkOutOfService false 32) = false := by
  refine ⟨?_, ?_, ?_, ?_, ?_, ?_, ?_, ?_, ?_, ?_, ?_, ?_, ?_, ?_, ?_, ?_, ?_, ?_, ?_, ?_, ?_, ?_, ?_, ?_, ?_, ?_, ?_, ?_, ?_⟩ <;> rfl

/-! ## Words -/

/-! Words written out from the encoding tables of the spec: for every instruction of each family the fields OP, FN, D, A, B, C, K, X (or OP,
FN, D, A, I32) as the owning chapter gives them (03 R57 to R92, 04 R102 to R105, 08 R168 to R189, 09 R195 to R223, 10 R229 to R239, 11 R256,
14 R268, R277, 15 R282, 18 R322, 21 R395, R397). -/

theorem test_decode_integer_0 :
    decode (sWord 0x01 0x00 1 2 31 0 0 0 0x0) = .ok (.add 1 2 31)
    ∧ decode (sWord 0x01 0x01 1 2 31 0 0 0 0x0) = .ok (.sub 1 2 31)
    ∧ decode (sWord 0x01 0x02 1 2 31 0 0 0 0x0) = .ok (.and 1 2 31)
    ∧ decode (sWord 0x01 0x03 1 2 31 0 0 0 0x0) = .ok (.or 1 2 31)
    ∧ decode (sWord 0x01 0x04 1 2 31 0 0 0 0x0) = .ok (.xor 1 2 31)
    ∧ decode (sWord 0x01 0x05 1 2 31 0 0 0 0x0) = .ok (.andn 1 2 31)
    ∧ decode (sWord 0x01 0x06 1 2 31 0 0 0 0x0) = .ok (.orn 1 2 31)
    ∧ decode (sWord 0x01 0x07 1 2 31 0 0 0 0x0) = .ok (.xnor 1 2 31)
    ∧ decode (sWord 0x01 0x08 1 2 31 0 0 0 0x0) = .ok (.sll 1 2 31)
    ∧ decode (sWord 0x01 0x09 1 2 31 0 0 0 0x0) = .ok (.srl 1 2 31)
    ∧ decode (sWord 0x01 0x0a 1 2 31 0 0 0 0x0) = .ok (.sra 1 2 31)
    ∧ decode (sWord 0x01 0x0b 1 2 31 0 0 0 0x0) = .ok (.rol 1 2 31)
    ∧ decode (sWord 0x01 0x0c 1 2 31 0 0 0 0x0) = .ok (.ror 1 2 31)
    ∧ decode (sWord 0x01 0x0d 1 2 31 0 0 0 0x0) = .ok (.minI64 1 2 31)
    ∧ decode (sWord 0x01 0x0e 1 2 31 0 0 0 0x0) = .ok (.maxI64 1 2 31)
    ∧ decode (sWord 0x01 0x0f 1 2 31 0 0 0 0x0) = .ok (.minN64 1 2 31) := by
  refine ⟨?_, ?_, ?_, ?_, ?_, ?_, ?_, ?_, ?_, ?_, ?_, ?_, ?_, ?_, ?_, ?_⟩ <;> rfl

theorem test_decode_integer_1 :
    decode (sWord 0x01 0x10 1 2 31 0 0 0 0x0) = .ok (.maxN64 1 2 31)
    ∧ decode (sWord 0x01 0x11 1 2 31 0 0 0 0x0) = .ok (.sltI64 1 2 31)
    ∧ decode (sWord 0x01 0x12 1 2 31 0 0 0 0x0) = .ok (.sltN64 1 2 31)
    ∧ decode (sWord 0x01 0x13 1 2 31 0 0 0 0x0) = .ok (.seq 1 2 31)
    ∧ decode (sWord 0x01 0x14 1 2 31 0 0 0 0x0) = .ok (.add32 1 2 31)
    ∧ decode (sWord 0x01 0x15 1 2 31 0 0 0 0x0) = .ok (.sub32 1 2 31)
    ∧ decode (sWord 0x01 0x16 1 2 31 0 0 0 0x0) = .ok (.sll32 1 2 31)
    ∧ decode (sWord 0x01 0x17 1 2 31 0 0 0 0x0) = .ok (.srl32 1 2 31)
    ∧ decode (sWord 0x01 0x18 1 2 31 0 0 0 0x0) = .ok (.sra32 1 2 31) := by
  refine ⟨?_, ?_, ?_, ?_, ?_, ?_, ?_, ?_, ?_⟩ <;> rfl

theorem test_decode_immediate_0 :
    decode (sWord 0x02 0x00 1 2 0 0 0 0 0x40001) = .ok (.addImm 1 2 0x40001)
    ∧ decode (sWord 0x02 0x02 1 2 0 0 0 0 0x40001) = .ok (.andImm 1 2 0x40001)
    ∧ decode (sWord 0x02 0x03 1 2 0 0 0 0 0x40001) = .ok (.orImm 1 2 0x40001)
    ∧ decode (sWord 0x02 0x04 1 2 0 0 0 0 0x40001) = .ok (.xorImm 1 2 0x40001)
    ∧ decode (sWord 0x02 0x08 1 2 0 0 0 0 0x3f) = .ok (.sllImm 1 2 63)
    ∧ decode (sWord 0x02 0x09 1 2 0 0 0 0 0x3f) = .ok (.srlImm 1 2 63)
    ∧ decode (sWord 0x02 0x0a 1 2 0 0 0 0 0x3f) = .ok (.sraImm 1 2 63)
    ∧ decode (sWord 0x02 0x0b 1 2 0 0 0 0 0x3f) = .ok (.rolImm 1 2 63)
    ∧ decode (sWord 0x02 0x0c 1 2 0 0 0 0 0x3f) = .ok (.rorImm 1 2 63)
    ∧ decode (sWord 0x02 0x0d 1 2 0 0 0 0 0x40001) = .ok (.minI64Imm 1 2 0x40001)
    ∧ decode (sWord 0x02 0x0e 1 2 0 0 0 0 0x40001) = .ok (.maxI64Imm 1 2 0x40001)
    ∧ decode (sWord 0x02 0x0f 1 2 0 0 0 0 0x40001) = .ok (.minN64Imm 1 2 0x40001)
    ∧ decode (sWord 0x02 0x10 1 2 0 0 0 0 0x40001) = .ok (.maxN64Imm 1 2 0x40001)
    ∧ decode (sWord 0x02 0x11 1 2 0 0 0 0 0x40001) = .ok (.sltI64Imm 1 2 0x40001)
    ∧ decode (sWord 0x02 0x12 1 2 0 0 0 0 0x40001) = .ok (.sltN64Imm 1 2 0x40001)
    ∧ decode (sWord 0x02 0x13 1 2 0 0 0 0 0x40001) = .ok (.seqImm 1 2 0x40001) := by
  refine ⟨?_, ?_, ?_, ?_, ?_, ?_, ?_, ?_, ?_, ?_, ?_, ?_, ?_, ?_, ?_, ?_⟩ <;> rfl

theorem test_decode_immediate_1 :
    decode (sWord 0x02 0x14 1 2 0 0 0 0 0x40001) = .ok (.add32Imm 1 2 0x40001)
    ∧ decode (sWord 0x02 0x16 1 2 0 0 0 0 0x1f) = .ok (.sll32Imm 1 2 31)
    ∧ decode (sWord 0x02 0x17 1 2 0 0 0 0 0x1f) = .ok (.srl32Imm 1 2 31)
    ∧ decode (sWord 0x02 0x18 1 2 0 0 0 0 0x1f) = .ok (.sra32Imm 1 2 31)
    ∧ decode (lWord 0x02 0x00 1 2 0 0x80000001) = .ok (.addImmLong 1 2 0x80000001)
    ∧ decode (lWord 0x02 0x02 1 2 0 0x80000001) = .ok (.andImmLong 1 2 0x80000001)
    ∧ decode (lWord 0x02 0x03 1 2 0 0x80000001) = .ok (.orImmLong 1 2 0x80000001)
    ∧ decode (lWord 0x02 0x04 1 2 0 0x80000001) = .ok (.xorImmLong 1 2 0x80000001) := by
  refine ⟨?_, ?_, ?_, ?_, ?_, ?_, ?_, ?_⟩ <;> rfl

theorem test_decode_multiply_0 :
    decode (sWord 0x03 0x00 3 4 5 0 0 0 0x0) = .ok (.mul 3 4 5)
    ∧ decode (sWord 0x03 0x01 3 4 5 0 0 0 0x0) = .ok (.mulhI64 3 4 5)
    ∧ decode (sWord 0x03 0x02 3 4 5 0 0 0 0x0) = .ok (.mulhN64 3 4 5)
    ∧ decode (sWord 0x03 0x03 3 4 5 0 0 0 0x0) = .ok (.mul32 3 4 5)
    ∧ decode (sWord 0x03 0x04 3 4 5 0 0 0 0x0) = .ok (.divI64 3 4 5)
    ∧ decode (sWord 0x03 0x05 3 4 5 0 0 0 0x0) = .ok (.divN64 3 4 5)
    ∧ decode (sWord 0x03 0x06 3 4 5 0 0 0 0x0) = .ok (.remI64 3 4 5)
    ∧ decode (sWord 0x03 0x07 3 4 5 0 0 0 0x0) = .ok (.remN64 3 4 5)
    ∧ decode (sWord 0x04 0x00 3 4 0 0 0 0 0x0) = .ok (.clz 3 4)
    ∧ decode (sWord 0x04 0x01 3 4 0 0 0 0 0x0) = .ok (.ctz 3 4)
    ∧ decode (sWord 0x04 0x02 3 4 0 0 0 0 0x0) = .ok (.popc 3 4)
    ∧ decode (sWord 0x04 0x03 3 4 0 0 0 0 0x0) = .ok (.rev8 3 4)
    ∧ decode (sWord 0x04 0x04 3 4 0 0 0 0 0x0) = .ok (.brev 3 4)
    ∧ decode (sWord 0x04 0x05 3 4 0 0 0 0 0x0) = .ok (.sext8 3 4)
    ∧ decode (sWord 0x04 0x06 3 4 0 0 0 0 0x0) = .ok (.sext16 3 4)
    ∧ decode (sWord 0x04 0x07 3 4 0 0 0 0 0x0) = .ok (.sext32 3 4) := by
  refine ⟨?_, ?_, ?_, ?_, ?_, ?_, ?_, ?_, ?_, ?_, ?_, ?_, ?_, ?_, ?_, ?_⟩ <;> rfl

theorem test_decode_multiply_1 :
    decode (sWord 0x04 0x08 3 4 0 0 0 0 0x0) = .ok (.zext8 3 4)
    ∧ decode (sWord 0x04 0x09 3 4 0 0 0 0 0x0) = .ok (.zext16 3 4)
    ∧ decode (sWord 0x04 0x0a 3 4 0 0 0 0 0x0) = .ok (.zext32 3 4)
    ∧ decode (sWord 0x05 0x00 3 4 5 6 0 0 0x0) = .ok (.sel 3 4 5 6)
    ∧ decode (sWord 0x05 0x01 3 4 5 6 0 0 0x0) = .ok (.madd 3 4 5 6)
    ∧ decode (sWord 0x06 0x00 9 0 0 0 0 0 0x7ffff) = .ok (.li 9 0x7FFFF)
    ∧ decode (lWord 0x06 0x00 9 0 0 0x12345678) = .ok (.liLong 9 0x12345678)
    ∧ decode (lWord 0x06 0x01 9 0 0 0xffffffff) = .ok (.lih 9 0xFFFFFFFF)
    ∧ decode (sWord 0x06 0x02 9 0 0 0 0 0 0x5) = .ok (.lpc 9 5)
    ∧ decode (lWord 0x06 0x02 9 0 0 0x5) = .ok (.lpcLong 9 5) := by
  refine ⟨?_, ?_, ?_, ?_, ?_, ?_, ?_, ?_, ?_, ?_⟩ <;> rfl

theorem test_decode_scalarFloat_0 :
    decode (sWord 0x30 0x00 1 2 3 0 0 0 0x5) = .ok (.faddF64 .rtz 1 2 3)
    ∧ decode (sWord 0x30 0x01 1 2 3 0 0 0 0x5) = .ok (.fsubF64 .rtz 1 2 3)
    ∧ decode (sWord 0x30 0x02 1 2 3 0 0 0 0x5) = .ok (.fmulF64 .rtz 1 2 3)
    ∧ decode (sWord 0x30 0x03 1 2 3 0 0 0 0x5) = .ok (.fdivF64 .rtz 1 2 3)
    ∧ decode (sWord 0x30 0x04 1 2 0 0 0 0 0x4) = .ok (.fsqrtF64 .rne 1 2)
    ∧ decode (sWord 0x30 0x05 1 2 3 4 0 0 0x6) = .ok (.fmaF64 .rup 1 2 3 4)
    ∧ decode (sWord 0x30 0x06 1 2 3 0 0 0 0x0) = .ok (.fminF64 1 2 3)
    ∧ decode (sWord 0x30 0x07 1 2 3 0 0 0 0x0) = .ok (.fmaxF64 1 2 3)
    ∧ decode (sWord 0x30 0x08 1 2 3 0 0 0 0x0) = .ok (.feqF64 1 2 3)
    ∧ decode (sWord 0x30 0x09 1 2 3 0 0 0 0x0) = .ok (.fltF64 1 2 3)
    ∧ decode (sWord 0x30 0x0a 1 2 3 0 0 0 0x0) = .ok (.fleF64 1 2 3)
    ∧ decode (sWord 0x30 0x0b 1 2 0 0 0 0 0x0) = .ok (.fclassF64 1 2)
    ∧ decode (sWord 0x30 0x0c 1 2 3 0 0 0 0x0) = .ok (.fsgnF64 1 2 3)
    ∧ decode (sWord 0x30 0x0d 1 2 3 0 0 0 0x0) = .ok (.fsgnnF64 1 2 3)
    ∧ decode (sWord 0x30 0x0e 1 2 3 0 0 0 0x0) = .ok (.fsgnxF64 1 2 3)
    ∧ decode (sWord 0x31 0x00 1 2 3 0 0 0 0x5) = .ok (.faddF32 .rtz 1 2 3) := by
  refine ⟨?_, ?_, ?_, ?_, ?_, ?_, ?_, ?_, ?_, ?_, ?_, ?_, ?_, ?_, ?_, ?_⟩ <;> rfl

theorem test_decode_scalarFloat_1 :
    decode (sWord 0x31 0x01 1 2 3 0 0 0 0x5) = .ok (.fsubF32 .rtz 1 2 3)
    ∧ decode (sWord 0x31 0x02 1 2 3 0 0 0 0x5) = .ok (.fmulF32 .rtz 1 2 3)
    ∧ decode (sWord 0x31 0x03 1 2 3 0 0 0 0x5) = .ok (.fdivF32 .rtz 1 2 3)
    ∧ decode (sWord 0x31 0x04 1 2 0 0 0 0 0x4) = .ok (.fsqrtF32 .rne 1 2)
    ∧ decode (sWord 0x31 0x05 1 2 3 4 0 0 0x6) = .ok (.fmaF32 .rup 1 2 3 4)
    ∧ decode (sWord 0x31 0x06 1 2 3 0 0 0 0x0) = .ok (.fminF32 1 2 3)
    ∧ decode (sWord 0x31 0x07 1 2 3 0 0 0 0x0) = .ok (.fmaxF32 1 2 3)
    ∧ decode (sWord 0x31 0x08 1 2 3 0 0 0 0x0) = .ok (.feqF32 1 2 3)
    ∧ decode (sWord 0x31 0x09 1 2 3 0 0 0 0x0) = .ok (.fltF32 1 2 3)
    ∧ decode (sWord 0x31 0x0a 1 2 3 0 0 0 0x0) = .ok (.fleF32 1 2 3)
    ∧ decode (sWord 0x31 0x0b 1 2 0 0 0 0 0x0) = .ok (.fclassF32 1 2)
    ∧ decode (sWord 0x31 0x0c 1 2 3 0 0 0 0x0) = .ok (.fsgnF32 1 2 3)
    ∧ decode (sWord 0x31 0x0d 1 2 3 0 0 0 0x0) = .ok (.fsgnnF32 1 2 3)
    ∧ decode (sWord 0x31 0x0e 1 2 3 0 0 0 0x0) = .ok (.fsgnxF32 1 2 3)
    ∧ decode (sWord 0x32 0x00 1 2 0 0 0 0 0x7) = .ok (.fcvtF32F64 .rdn 1 2)
    ∧ decode (sWord 0x32 0x01 1 2 0 0 0 0 0x7) = .ok (.fcvtF64F32 .rdn 1 2) := by
  refine ⟨?_, ?_, ?_, ?_, ?_, ?_, ?_, ?_, ?_, ?_, ?_, ?_, ?_, ?_, ?_, ?_⟩ <;> rfl

theorem test_decode_scalarFloat_2 :
    decode (sWord 0x32 0x02 1 2 0 0 0 0 0x7) = .ok (.fcvtF64I64 .rdn 1 2)
    ∧ decode (sWord 0x32 0x03 1 2 0 0 0 0 0x7) = .ok (.fcvtF64N64 .rdn 1 2)
    ∧ decode (sWord 0x32 0x04 1 2 0 0 0 0 0x7) = .ok (.fcvtF32I64 .rdn 1 2)
    ∧ decode (sWord 0x32 0x05 1 2 0 0 0 0 0x7) = .ok (.fcvtF32N64 .rdn 1 2)
    ∧ decode (sWord 0x32 0x06 1 2 0 0 0 0 0x7) = .ok (.fcvtI64F64 .rdn 1 2)
    ∧ decode (sWord 0x32 0x07 1 2 0 0 0 0 0x7) = .ok (.fcvtN64F64 .rdn 1 2)
    ∧ decode (sWord 0x32 0x08 1 2 0 0 0 0 0x7) = .ok (.fcvtI64F32 .rdn 1 2)
    ∧ decode (sWord 0x32 0x09 1 2 0 0 0 0 0x7) = .ok (.fcvtN64F32 .rdn 1 2) := by
  refine ⟨?_, ?_, ?_, ?_, ?_, ?_, ?_, ?_⟩ <;> rfl

theorem test_decode_scalarMemory_0 :
    decode (sWord 0x40 0x00 6 1 0 0 0 0 0x8) = .ok (.ldI8 6 1 8)
    ∧ decode (lWord 0x40 0x00 6 1 0 0xfffffff8) = .ok (.ldI8Long 6 1 0xFFFFFFF8)
    ∧ decode (sWord 0x40 0x01 6 1 0 0 0 0 0x8) = .ok (.ldN8 6 1 8)
    ∧ decode (lWord 0x40 0x01 6 1 0 0xfffffff8) = .ok (.ldN8Long 6 1 0xFFFFFFF8)
    ∧ decode (sWord 0x40 0x02 6 1 0 0 0 0 0x8) = .ok (.ldI16 6 1 8)
    ∧ decode (lWord 0x40 0x02 6 1 0 0xfffffff8) = .ok (.ldI16Long 6 1 0xFFFFFFF8)
    ∧ decode (sWord 0x40 0x03 6 1 0 0 0 0 0x8) = .ok (.ldN16 6 1 8)
    ∧ decode (lWord 0x40 0x03 6 1 0 0xfffffff8) = .ok (.ldN16Long 6 1 0xFFFFFFF8)
    ∧ decode (sWord 0x40 0x04 6 1 0 0 0 0 0x8) = .ok (.ldI32 6 1 8)
    ∧ decode (lWord 0x40 0x04 6 1 0 0xfffffff8) = .ok (.ldI32Long 6 1 0xFFFFFFF8)
    ∧ decode (sWord 0x40 0x05 6 1 0 0 0 0 0x8) = .ok (.ldN32 6 1 8)
    ∧ decode (lWord 0x40 0x05 6 1 0 0xfffffff8) = .ok (.ldN32Long 6 1 0xFFFFFFF8)
    ∧ decode (sWord 0x40 0x06 6 1 0 0 0 0 0x8) = .ok (.ldI64 6 1 8)
    ∧ decode (lWord 0x40 0x06 6 1 0 0xfffffff8) = .ok (.ldI64Long 6 1 0xFFFFFFF8)
    ∧ decode (sWord 0x41 0x00 6 1 0 0 0 0 0x8) = .ok (.st8 6 1 8)
    ∧ decode (lWord 0x41 0x00 6 1 0 0xfffffff8) = .ok (.st8Long 6 1 0xFFFFFFF8) := by
  refine ⟨?_, ?_, ?_, ?_, ?_, ?_, ?_, ?_, ?_, ?_, ?_, ?_, ?_, ?_, ?_, ?_⟩ <;> rfl

theorem test_decode_scalarMemory_1 :
    decode (sWord 0x41 0x01 6 1 0 0 0 0 0x8) = .ok (.st16 6 1 8)
    ∧ decode (lWord 0x41 0x01 6 1 0 0xfffffff8) = .ok (.st16Long 6 1 0xFFFFFFF8)
    ∧ decode (sWord 0x41 0x02 6 1 0 0 0 0 0x8) = .ok (.st32 6 1 8)
    ∧ decode (lWord 0x41 0x02 6 1 0 0xfffffff8) = .ok (.st32Long 6 1 0xFFFFFFF8)
    ∧ decode (sWord 0x41 0x03 6 1 0 0 0 0 0x8) = .ok (.st64 6 1 8)
    ∧ decode (lWord 0x41 0x03 6 1 0 0xfffffff8) = .ok (.st64Long 6 1 0xFFFFFFF8)
    ∧ decode (sWord 0x42 0x05 6 11 0 0 0 0 0x0) = .ok (.ldAcq .pk 6 11 0)
    ∧ decode (sWord 0x42 0x0a 6 11 0 0 0 0 0x0) = .ok (.ldAcqN32 .dl 6 11 0)
    ∧ decode (sWord 0x43 0x00 6 11 0 0 0 0 0x0) = .ok (.stRel .lg 6 11 0)
    ∧ decode (sWord 0x43 0x0b 6 11 0 0 0 0 0x0) = .ok (.stRel32 .ch 6 11 0)
    ∧ decode (sWord 0x44 0x00 1 2 3 0 0 0 0x7fff8) = .ok (.amoSwap false 1 2 3 0x7FFF8)
    ∧ decode (sWord 0x44 0x11 1 2 3 0 0 0 0x7fff8) = .ok (.amoAdd true 1 2 3 0x7FFF8)
    ∧ decode (sWord 0x44 0x02 1 2 3 0 0 0 0x7fff8) = .ok (.amoAnd false 1 2 3 0x7FFF8)
    ∧ decode (sWord 0x44 0x13 1 2 3 0 0 0 0x7fff8) = .ok (.amoOr true 1 2 3 0x7FFF8)
    ∧ decode (sWord 0x44 0x04 1 2 3 0 0 0 0x7fff8) = .ok (.amoXor false 1 2 3 0x7FFF8)
    ∧ decode (sWord 0x44 0x15 1 2 3 0 0 0 0x7fff8) = .ok (.amoMinI true 1 2 3 0x7FFF8) := by
  refine ⟨?_, ?_, ?_, ?_, ?_, ?_, ?_, ?_, ?_, ?_, ?_, ?_, ?_, ?_, ?_, ?_⟩ <;> rfl

theorem test_decode_scalarMemory_2 :
    decode (sWord 0x44 0x06 1 2 3 0 0 0 0x7fff8) = .ok (.amoMaxI false 1 2 3 0x7FFF8)
    ∧ decode (sWord 0x44 0x17 1 2 3 0 0 0 0x7fff8) = .ok (.amoMinN true 1 2 3 0x7FFF8)
    ∧ decode (sWord 0x44 0x08 1 2 3 0 0 0 0x7fff8) = .ok (.amoMaxN false 1 2 3 0x7FFF8)
    ∧ decode (sWord 0x45 0x00 1 2 3 4 0 0 0x8) = .ok (.cas64 1 2 3 4 8)
    ∧ decode (sWord 0x45 0x01 1 2 3 4 0 0 0x8) = .ok (.cas32 1 2 3 4 8)
    ∧ decode (sWord 0x46 0x00 0 2 0 0 0 0 0x80) = .ok (.prefd 2 128)
    ∧ decode (sWord 0x46 0x01 0 2 0 0 0 0 0x80) = .ok (.prefi 2 128) := by
  refine ⟨?_, ?_, ?_, ?_, ?_, ?_, ?_⟩ <;> rfl

theorem test_decode_control_0 :
    decode (sWord 0x50 0x00 0 2 3 0 0 0 0x7fff9) = .ok (.beq 2 3 0x7FFF9)
    ∧ decode (sWord 0x50 0x01 0 2 3 0 0 0 0x7fff9) = .ok (.bne 2 3 0x7FFF9)
    ∧ decode (sWord 0x50 0x02 0 2 3 0 0 0 0x7fff9) = .ok (.bltI64 2 3 0x7FFF9)
    ∧ decode (sWord 0x50 0x03 0 2 3 0 0 0 0x7fff9) = .ok (.bgeI64 2 3 0x7FFF9)
    ∧ decode (sWord 0x50 0x04 0 2 3 0 0 0 0x7fff9) = .ok (.bltN64 2 3 0x7FFF9)
    ∧ decode (sWord 0x50 0x05 0 2 3 0 0 0 0x7fff9) = .ok (.bgeN64 2 3 0x7FFF9)
    ∧ decode (sWord 0x51 0x00 31 0 0 0 0 0 0x7ffff) = .ok (.jal 31 0x7FFFF)
    ∧ decode (lWord 0x51 0x00 31 0 0 0xffffffff) = .ok (.jalLong 31 0xFFFFFFFF)
    ∧ decode (sWord 0x52 0x00 31 30 0 0 0 0 0x10) = .ok (.jalr 31 30 16)
    ∧ decode (sWord 0x58 0x00 5 4 0 0 0 0 0x0) = .ok (.setvlReg 5 4)
    ∧ decode (sWord 0x58 0x01 5 0 0 0 0 0 0x7ffff) = .ok (.setvlImm 5 0x7FFFF)
    ∧ decode (sWord 0x58 0x02 5 4 31 0 0 0 0x0) = .ok (.setvlStream 5 4 3)
    ∧ decode (sWord 0x59 0x00 5 0 0 0 0 0 0x7f) = .ok (.settypeImm 5 0x7F)
    ∧ decode (sWord 0x59 0x01 5 4 0 0 0 0 0x0) = .ok (.settypeReg 5 4)
    ∧ decode (sWord 0x5a 0x00 5 4 3 0 0 0 0x0) = .ok (.setshapeReg 5 4 3)
    ∧ decode (sWord 0x5a 0x01 5 0 0 0 0 0 0x460) = .ok (.setshapeImm 5 32 17) := by
  refine ⟨?_, ?_, ?_, ?_, ?_, ?_, ?_, ?_, ?_, ?_, ?_, ?_, ?_, ?_, ?_, ?_⟩ <;> rfl

theorem test_decode_control_1 :
    decode (sWord 0x5b 0x00 5 0 0 0 0 0 0x208) = .ok (.csrr 5 0x208)
    ∧ decode (sWord 0x5b 0x01 0 20 0 0 0 0 0x308) = .ok (.csrw 0x308 20)
    ∧ decode (sWord 0x5b 0x02 5 6 0 0 0 0 0x102) = .ok (.csrrw 5 0x102 6)
    ∧ decode (sWord 0x5b 0x03 5 6 0 0 0 0 0x102) = .ok (.csrs 5 0x102 6)
    ∧ decode (sWord 0x5b 0x04 5 6 0 0 0 0 0x102) = .ok (.csrc 5 0x102 6) := by
  refine ⟨?_, ?_, ?_, ?_, ?_⟩ <;> rfl

theorem test_decode_system_0 :
    decode (sWord 0x60 0x00 0 0 0 0 0 0 0xfff) = .ok (.trap 0xFFF)
    ∧ decode (sWord 0x60 0x01 0 0 0 0 0 0 0x0) = .ok (.eret)
    ∧ decode (sWord 0x61 0x00 5 9 0 0 0 0 0x0) = .ok (.vsave 5 9)
    ∧ decode (sWord 0x61 0x01 0 9 0 0 0 0 0x0) = .ok (.vrest 9)
    ∧ decode (sWord 0x62 0x05 0 0 0 0 0 0 0x82) = .ok (.fence .pk false 2 1)
    ∧ decode (sWord 0x62 0x08 0 0 0 0 0 0 0x207f) = .ok (.fence .lg true 0x7F 0x40)
    ∧ decode (sWord 0x62 0x06 9 0 0 0 0 0 0xc0) = .ok (.fencePd false 9 0x40 1)
    ∧ decode (sWord 0x63 0x00 5 9 6 7 0 0 0x8) = .ok (.waitaddr 5 9 6 7 8)
    ∧ decode (sWord 0x63 0x01 5 9 6 7 0 0 0x8) = .ok (.waitaddr32 5 9 6 7 8)
    ∧ decode (sWord 0x63 0x02 5 6 0 7 0 0 0x0) = .ok (.cewait 5 6 7)
    ∧ decode (sWord 0x63 0x03 0 10 11 0 0 0 0x80) = .ok (.lnempty 10 11 128)
    ∧ decode (sWord 0x64 0x00 5 9 0 0 0 0 0x40) = .ok (.launch 5 9 64)
    ∧ decode (sWord 0x65 0x00 5 6 0 0 0 0 0x0) = .ok (.join 5 6)
    ∧ decode (sWord 0x65 0x01 5 0 0 0 0 0 0x0) = .ok (.leave 5)
    ∧ decode (sWord 0x65 0x02 0 0 0 0 0 0 0x0) = .ok (.yield)
    ∧ decode (sWord 0x65 0x02 0 0 0 0 0 0 0x1) = .ok (.yieldPark) := by
  refine ⟨?_, ?_, ?_, ?_, ?_, ?_, ?_, ?_, ?_, ?_, ?_, ?_, ?_, ?_, ?_, ?_⟩ <;> rfl

theorem test_decode_system_1 :
    decode (sWord 0x65 0x03 0 7 0 0 0 0 0x0) = .ok (.exit 7)
    ∧ decode (sWord 0x65 0x04 0 0 0 0 0 0 0x7) = .ok (.hprio 7)
    ∧ decode (sWord 0x65 0x05 0 7 0 0 0 0 0x0) = .ok (.hafn 7)
    ∧ decode (sWord 0x65 0x06 5 6 0 0 0 0 0x0) = .ok (.lend 5 6)
    ∧ decode (sWord 0x66 0x00 5 9 6 0 0 0 0x10) = .ok (.byinit 5 9 6 16)
    ∧ decode (sWord 0x66 0x01 5 9 0 0 0 0 0xff) = .ok (.byarrive 5 9 255)
    ∧ decode (sWord 0x66 0x02 5 9 6 7 0 0 0x10) = .ok (.bywait 5 9 6 7 16)
    ∧ decode (sWord 0x6e 0x00 0 0 0 0 0 0 0x5) = .ok (.drain 5)
    ∧ decode (sWord 0x70 0x00 5 16 0 0 0 0 0x40) = .ok (.welt 5 16 64)
    ∧ decode (sWord 0x71 0x00 5 6 0 0 0 0 0x0) = .ok (.bcnopen 5 6)
    ∧ decode (sWord 0x72 0x00 5 9 7 0 0 0 0x17ff0) = .ok (.beacon 5 9 7 2 0x7FF0)
    ∧ decode (sWord 0x73 0x00 5 0 0 0 0 0 0x2) = .ok (.bcnclose 5 2)
    ∧ decode (sWord 0x77 0x00 0 9 0 0 0 0 0x40) = .ok (.cbkld 9 64)
    ∧ decode (sWord 0xe0 0x20 0 9 7 0 0 0 0x8) = .ok (.rred .add .f32 9 7 8)
    ∧ decode (sWord 0xe0 0x1d 0 9 7 0 0 0 0x8) = .ok (.rred .xor .n64 9 7 8)
    ∧ decode (sWord 0xe1 0x00 5 10 11 0 0 0 0x3) = .ok (.rwset 5 3 10 11) := by
  refine ⟨?_, ?_, ?_, ?_, ?_, ?_, ?_, ?_, ?_, ?_, ?_, ?_, ?_, ?_, ?_, ?_⟩ <;> rfl

theorem test_decode_system_2 : decode (sWord 0xe2 0x00 0 10 11 0 0 0 0x0) = .ok (.fmap 10 11) := rfl

theorem test_decode_vectorFloat_0 :
    decode (sWord 0x80 0x22 8 9 10 0 5 0 0x40005) = .ok (.vaddFp ⟨.fp32, false⟩ ⟨5, true⟩ .rtz 8 9 (.scalar 10))
    ∧ decode (sWord 0x81 0x22 8 9 10 0 5 0 0x40005) = .ok (.vsubFp ⟨.fp32, false⟩ ⟨5, true⟩ .rtz 8 9 (.scalar 10))
    ∧ decode (sWord 0x82 0x22 8 9 10 0 5 0 0x40005) = .ok (.vmulFp ⟨.fp32, false⟩ ⟨5, true⟩ .rtz 8 9 (.scalar 10))
    ∧ decode (sWord 0x83 0x22 8 9 10 0 5 0 0x40005) = .ok (.vdiv ⟨.fp32, false⟩ ⟨5, true⟩ .rtz 8 9 (.scalar 10))
    ∧ decode (sWord 0x85 0x22 8 9 10 0 5 0 0x40005) = .ok (.vfma ⟨.fp32, false⟩ ⟨5, true⟩ .rtz 8 9 (.scalar 10))
    ∧ decode (sWord 0x86 0x22 8 9 10 0 5 0 0x40005) = .ok (.vfnma ⟨.fp32, false⟩ ⟨5, true⟩ .rtz 8 9 (.scalar 10))
    ∧ decode (sWord 0x87 0x22 8 9 10 0 5 0 0x40005) = .ok (.vminFp ⟨.fp32, false⟩ ⟨5, true⟩ .rtz 8 9 (.scalar 10))
    ∧ decode (sWord 0x88 0x22 8 9 10 0 5 0 0x40005) = .ok (.vmaxFp ⟨.fp32, false⟩ ⟨5, true⟩ .rtz 8 9 (.scalar 10))
    ∧ decode (sWord 0x84 0x01 8 9 0 0 0 0 0x0) = .ok (.vsqrt ⟨.fp64, false⟩ ⟨0, false⟩ .dyn 8 9)
    ∧ decode (sWord 0x89 0x04 7 9 10 0 0 0 0x0) = .ok (.vcmpFp .eq ⟨.bf16, false⟩ ⟨0, false⟩ 7 9 (.vec 10))
    ∧ decode (sWord 0x89 0x04 7 9 10 0 0 0 0x1) = .ok (.vcmpFp .ne ⟨.bf16, false⟩ ⟨0, false⟩ 7 9 (.vec 10))
    ∧ decode (sWord 0x89 0x04 7 9 10 0 0 0 0x2) = .ok (.vcmpFp .lt ⟨.bf16, false⟩ ⟨0, false⟩ 7 9 (.vec 10))
    ∧ decode (sWord 0x89 0x04 7 9 10 0 0 0 0x3) = .ok (.vcmpFp .le ⟨.bf16, false⟩ ⟨0, false⟩ 7 9 (.vec 10))
    ∧ decode (sWord 0x89 0x04 7 9 10 0 0 0 0x4) = .ok (.vcmpFp .gt ⟨.bf16, false⟩ ⟨0, false⟩ 7 9 (.vec 10))
    ∧ decode (sWord 0x89 0x04 7 9 10 0 0 0 0x5) = .ok (.vcmpFp .ge ⟨.bf16, false⟩ ⟨0, false⟩ 7 9 (.vec 10))
    ∧ decode (sWord 0x8a 0x03 8 9 10 0 0 0 0x0) = .ok (.vsgn ⟨.fp16, false⟩ ⟨0, false⟩ 8 9 (.vec 10)) := by
  refine ⟨?_, ?_, ?_, ?_, ?_, ?_, ?_, ?_, ?_, ?_, ?_, ?_, ?_, ?_, ?_, ?_⟩ <;> rfl

theorem test_decode_vectorFloat_1 :
    decode (sWord 0x8a 0x03 8 9 10 0 0 0 0x1) = .ok (.vsgnn ⟨.fp16, false⟩ ⟨0, false⟩ 8 9 (.vec 10))
    ∧ decode (sWord 0x8a 0x03 8 9 10 0 0 0 0x2) = .ok (.vsgnx ⟨.fp16, false⟩ ⟨0, false⟩ 8 9 (.vec 10))
    ∧ decode (sWord 0x8b 0x02 8 9 7 0 0 0 0x1) = .ok (.vscl true ⟨.fp32, false⟩ ⟨0, false⟩ 8 9 7) := by
  refine ⟨?_, ?_, ?_⟩ <;> rfl

theorem test_decode_vectorInteger_0 :
    decode (sWord 0x90 0x3a 8 9 10 0 5 0 0x0) = .ok (.vaddInt ⟨.int16, true⟩ ⟨5, true⟩ 8 9 (.vec 10))
    ∧ decode (sWord 0x91 0x3a 8 9 10 0 5 0 0x0) = .ok (.vsubInt ⟨.int16, true⟩ ⟨5, true⟩ 8 9 (.vec 10))
    ∧ decode (sWord 0x92 0x3a 8 9 10 0 5 0 0x0) = .ok (.vaddSat ⟨.int16, true⟩ ⟨5, true⟩ 8 9 (.vec 10))
    ∧ decode (sWord 0x93 0x3a 8 9 10 0 5 0 0x0) = .ok (.vsubSat ⟨.int16, true⟩ ⟨5, true⟩ 8 9 (.vec 10))
    ∧ decode (sWord 0x94 0x3a 8 9 10 0 5 0 0x0) = .ok (.vmulInt ⟨.int16, true⟩ ⟨5, true⟩ 8 9 (.vec 10))
    ∧ decode (sWord 0x95 0x3a 8 9 10 0 5 0 0x0) = .ok (.vmulh ⟨.int16, true⟩ ⟨5, true⟩ 8 9 (.vec 10))
    ∧ decode (sWord 0x96 0x3a 8 9 10 0 5 0 0x0) = .ok (.vmadd ⟨.int16, true⟩ ⟨5, true⟩ 8 9 (.vec 10))
    ∧ decode (sWord 0x97 0x3a 8 9 10 0 5 0 0x0) = .ok (.vminInt ⟨.int16, true⟩ ⟨5, true⟩ 8 9 (.vec 10))
    ∧ decode (sWord 0x98 0x3a 8 9 10 0 5 0 0x0) = .ok (.vmaxInt ⟨.int16, true⟩ ⟨5, true⟩ 8 9 (.vec 10))
    ∧ decode (sWord 0x9a 0x3a 8 9 10 0 5 0 0x0) = .ok (.vsll ⟨.int16, true⟩ ⟨5, true⟩ 8 9 (.vec 10))
    ∧ decode (sWord 0x9b 0x3a 8 9 10 0 5 0 0x0) = .ok (.vsrl ⟨.int16, true⟩ ⟨5, true⟩ 8 9 (.vec 10))
    ∧ decode (sWord 0x9c 0x3a 8 9 10 0 5 0 0x0) = .ok (.vsra ⟨.int16, true⟩ ⟨5, true⟩ 8 9 (.vec 10))
    ∧ decode (sWord 0x99 0x0c 7 9 10 0 0 0 0x40005) = .ok (.vcmpInt .ge ⟨.int64, false⟩ ⟨0, false⟩ 7 9 (.scalar 10))
    ∧ decode (sWord 0x9d 0x09 8 0 0 0 0 0 0x0) = .ok (.vid ⟨.int8, false⟩ ⟨0, false⟩ 8)
    ∧ decode (sWord 0xa0 0x20 8 9 10 0 5 0 0x40000) = .ok (.vand ⟨5, true⟩ 8 9 (.scalar 10))
    ∧ decode (sWord 0xa1 0x20 8 9 10 0 5 0 0x40000) = .ok (.vor ⟨5, true⟩ 8 9 (.scalar 10)) := by
  refine ⟨?_, ?_, ?_, ?_, ?_, ?_, ?_, ?_, ?_, ?_, ?_, ?_, ?_, ?_, ?_, ?_⟩ <;> rfl

theorem test_decode_vectorInteger_1 :
    decode (sWord 0xa2 0x20 8 9 10 0 5 0 0x40000) = .ok (.vxor ⟨5, true⟩ 8 9 (.scalar 10))
    ∧ decode (sWord 0xa3 0x00 8 9 0 0 0 0 0x0) = .ok (.vmv ⟨0, false⟩ 8 9)
    ∧ decode (sWord 0xa4 0x00 1 2 7 0 0 0 0x0) = .ok (.kand 1 2 7)
    ∧ decode (sWord 0xa4 0x01 1 2 7 0 0 0 0x0) = .ok (.kor 1 2 7)
    ∧ decode (sWord 0xa4 0x02 1 2 7 0 0 0 0x0) = .ok (.kxor 1 2 7)
    ∧ decode (sWord 0xa4 0x03 1 2 7 0 0 0 0x0) = .ok (.kandn 1 2 7)
    ∧ decode (sWord 0xa4 0x04 1 2 0 0 0 0 0x0) = .ok (.knot 1 2)
    ∧ decode (sWord 0xa4 0x05 7 0 0 0 0 0 0x0) = .ok (.kset 7)
    ∧ decode (sWord 0xa5 0x08 8 9 0 0 0 0 0x0) = .ok (.vbcast ⟨.k4, false⟩ ⟨0, false⟩ 8 9)
    ∧ decode (sWord 0xa6 0x1b 8 9 10 0 0 0 0x0) = .ok (.vmvx ⟨.int32, true⟩ 8 9 10)
    ∧ decode (sWord 0xa7 0x00 4 1 0 0 0 0 0x18425) = .ok (.vcvt ⟨0, false⟩ .rup 1 ⟨.t8, false⟩ ⟨.fp32, false⟩ 4 1)
    ∧ decode (sWord 0xa7 0x20 4 1 0 0 5 0 0x1aa) = .ok (.vcvt ⟨5, true⟩ .dyn 0 ⟨.int16, true⟩ ⟨.int16, false⟩ 4 1)
    ∧ decode (sWord 0xa8 0x05 1 2 0 0 3 0 0x0) = .ok (.vsegmax ⟨.t8, false⟩ 3 1 2)
    ∧ decode (sWord 0xa9 0x08 7 2 3 0 0 0 0x1) = .ok (.vsalsel .n4m8 ⟨.k4, false⟩ ⟨0, false⟩ 7 2 3)
    ∧ decode (sWord 0xaa 0x3b 8 9 10 0 5 0 0x0) = .ok (.vrngN32 ⟨5, true⟩ 8 9 10) := by
  refine ⟨?_, ?_, ?_, ?_, ?_, ?_, ?_, ?_, ?_, ?_, ?_, ?_, ?_, ?_, ?_⟩ <;> rfl

theorem test_decode_vectorMemory_0 :
    decode (sWord 0xb0 0x27 8 9 0 0 5 0 0x7ffff) = .ok (.vld ⟨.f4, false⟩ ⟨5, true⟩ 8 9 0x7FFFF)
    ∧ decode (sWord 0xb1 0x19 8 9 0 1 5 0 0x1) = .ok (.vst ⟨.int8, true⟩ 5 true 8 9 1)
    ∧ decode (sWord 0xb2 0x02 8 9 10 0 0 0 0x4) = .ok (.vlds ⟨.fp32, false⟩ ⟨0, false⟩ 8 9 10 4)
    ∧ decode (sWord 0xb3 0x02 8 9 10 0 0 0 0x4) = .ok (.vsts ⟨.fp32, false⟩ 0 false 8 9 10 4)
    ∧ decode (sWord 0xb4 0x02 8 9 10 0 0 0 0x7ffff) = .ok (.vldx ⟨.fp32, false⟩ ⟨0, false⟩ 8 9 10 15 0x7FFF)
    ∧ decode (sWord 0xb5 0x02 8 9 10 1 0 0 0x10004) = .ok (.vstx ⟨.fp32, false⟩ 0 true 8 9 10 2 4)
    ∧ decode (sWord 0xb6 0x02 4 10 2 0 0 0 0x4003) = .ok (.vgath ⟨.fp32, false⟩ ⟨0, false⟩ 4 10 2 4 3)
    ∧ decode (sWord 0xb7 0x0b 5 12 6 0 0 0 0x3000) = .ok (.vscat ⟨.int32, false⟩ 0 5 12 6 3 0)
    ∧ decode (sWord 0xb8 0x02 7 11 3 0 0 0 0x2000) = .ok (.vscadd ⟨.fp32, false⟩ 0 7 11 3 2 0)
    ∧ decode (sWord 0xb9 0x00 31 9 0 0 0 0 0x40) = .ok (.sopen 3 9 64)
    ∧ decode (sWord 0xb9 0x01 29 4 0 0 0 0 0x0) = .ok (.sadv 1 4)
    ∧ decode (sWord 0xb9 0x02 6 28 0 0 0 0 0x0) = .ok (.stend 6 0)
    ∧ decode (sWord 0xb9 0x03 30 0 0 0 0 0 0x0) = .ok (.sclose 2)
    ∧ decode (sWord 0xba 0x00 28 15 0 0 0 0 0x0) = .ok (.fopen 0 15 0)
    ∧ decode (sWord 0xba 0x01 30 0 0 0 0 0 0x0) = .ok (.fadv 2)
    ∧ decode (sWord 0xba 0x02 6 28 0 0 0 0 0x0) = .ok (.ftend 6 0) := by
  refine ⟨?_, ?_, ?_, ?_, ?_, ?_, ?_, ?_, ?_, ?_, ?_, ?_, ?_, ?_, ?_, ?_⟩ <;> rfl

theorem test_decode_vectorMemory_1 :
    decode (sWord 0xba 0x03 30 0 0 0 0 0 0x0) = .ok (.fclose 2)
    ∧ decode (sWord 0xbb 0x00 5 6 0 0 0 0 0x0) = .ok (.vgamRd 5 6)
    ∧ decode (sWord 0xbb 0x01 5 6 0 0 0 0 0x0) = .ok (.vgamWr 5 6)
    ∧ decode (sWord 0xc0 0x1c 8 9 10 0 5 0 0x0) = .ok (.vred .add ⟨.int64, true⟩ 5 8 9 10)
    ∧ decode (sWord 0xc0 0x1c 8 9 10 0 5 0 0x1) = .ok (.vred .min ⟨.int64, true⟩ 5 8 9 10)
    ∧ decode (sWord 0xc0 0x1c 8 9 10 0 5 0 0x2) = .ok (.vred .max ⟨.int64, true⟩ 5 8 9 10)
    ∧ decode (sWord 0xc0 0x1c 8 9 10 0 5 0 0x3) = .ok (.vred .and ⟨.int64, true⟩ 5 8 9 10)
    ∧ decode (sWord 0xc0 0x1c 8 9 10 0 5 0 0x4) = .ok (.vred .or ⟨.int64, true⟩ 5 8 9 10)
    ∧ decode (sWord 0xc0 0x1c 8 9 10 0 5 0 0x5) = .ok (.vred .xor ⟨.int64, true⟩ 5 8 9 10)
    ∧ decode (sWord 0xc1 0x22 8 9 10 0 5 0 0xa) = .ok (.vscan .max true ⟨.fp32, false⟩ ⟨5, true⟩ 8 9 10)
    ∧ decode (sWord 0xc2 0x20 8 9 10 0 5 0 0x0) = .ok (.vperm ⟨5, true⟩ 8 9 10)
    ∧ decode (sWord 0xc3 0x00 8 9 10 0 0 0 0x0) = .ok (.vslideUp ⟨0, false⟩ 8 9 10)
    ∧ decode (sWord 0xc3 0x00 8 9 10 0 0 0 0x1) = .ok (.vslideDn ⟨0, false⟩ 8 9 10)
    ∧ decode (sWord 0xc4 0x00 4 1 0 0 2 0 0x0) = .ok (.vcompress 2 4 1)
    ∧ decode (sWord 0xc5 0x00 7 2 0 0 0 0 0x0) = .ok (.kpopc 7 2)
    ∧ decode (sWord 0xc5 0x01 7 2 0 0 0 0 0x0) = .ok (.kfirst 7 2) := by
  refine ⟨?_, ?_, ?_, ?_, ?_, ?_, ?_, ?_, ?_, ?_, ?_, ?_, ?_, ?_, ?_, ?_⟩ <;> rfl

theorem test_decode_matrix_0 :
    decode (sWord 0xd0 0x05 2 10 1 21 0 0 0x17) = .ok (.plpack ⟨.t8, false⟩ 0 true 7 2 10 1 21)
    ∧ decode (sWord 0xd1 0x22 2 10 0 21 5 0 0x7) = .ok (.plunpk ⟨5, true⟩ 7 2 10 21)
    ∧ decode (sWord 0xd2 0x00 1 16 17 27 0 0 0x137) = .ok (.mma 7 3 true 1 16 17 27)
    ∧ decode (sWord 0xd3 0x00 3 0 0 0 0 0 0x0) = .ok (.mzero 3)
    ∧ decode (sWord 0xd4 0x00 3 12 24 0 0 0 0x4) = .ok (.mld 3 12 24 4)
    ∧ decode (sWord 0xd5 0x00 3 12 24 0 0 0 0x4) = .ok (.mst 3 12 24 4) := by
  refine ⟨?_, ?_, ?_, ?_, ?_, ?_⟩ <;> rfl

/-! Words as the spec prints them in its worked encodings. -/

theorem test_spec_words_0 :
    decode 0x5052802054210C00 = .ok (.pairWord ⟨.addImm, 10, 10, 64⟩ ⟨.vaddF32, 2, 2, 0xC00⟩)
    ∧ decode 0x42398A0036708010 = .ok (.pairWord ⟨.sub, 7, 6, 0x1400⟩ ⟨.st64, 7, 1, 16⟩)
    ∧ decode 0x8180480012345678 = .ok (.liLong 9 0x12345678)
    ∧ decode 0x0040000000000000 = .ok (.add 0 0 0)
    ∧ decode 0x1006304000000008 = .ok (.ldI64 6 1 8)
    ∧ decode 0x1640000000000003 = .ok (.settypeImm 0 3)
    ∧ decode 0x1600290000000000 = .ok (.setvlReg 5 4)
    ∧ decode 0x140101000007FFF9 = .ok (.bne 4 0 0x7FFF9)
    ∧ decode 0x1801000000000000 = .ok (.eret)
    ∧ decode 0x0182A00000070168 = .ok (.lpc 20 0x70168)
    ∧ decode 0x16C1050000000308 = .ok (.csrw 0x308 20)
    ∧ decode 0x1181054000000100 = .ok (.prefi 21 0x100)
    ∧ decode 0x008021000007FFFF = .ok (.addImm 4 4 0x7FFFF) := by
  refine ⟨?_, ?_, ?_, ?_, ?_, ?_, ?_, ?_, ?_, ?_, ?_, ?_, ?_⟩ <;> rfl

theorem test_spec_words_1 :
    decode 0x2142104602000000 = .ok (.vfma ⟨.fp32, false⟩ ⟨1, false⟩ .dyn 2 1 (.vec 3))
    ∧ decode 0x2082084C00040000 = .ok (.vmulFp ⟨.fp32, false⟩ ⟨0, false⟩ .dyn 1 1 (.scalar 6))
    ∧ decode 0x2262114C06000002 = .ok (.vcmpFp .lt ⟨.fp32, false⟩ ⟨3, true⟩ 2 5 (.vec 6))
    ∧ decode 0x2499425400000000 = .ok (.vaddSat ⟨.int8, true⟩ ⟨0, false⟩ 8 9 (.vec 10))
    ∧ decode 0x29C0204000000425 = .ok (.vcvt ⟨0, false⟩ .dyn 1 ⟨.t8, false⟩ ⟨.fp32, false⟩ 4 1)
    ∧ decode 0x2A05088000000000 = .ok (.vsegmax ⟨.t8, false⟩ 0 1 2)
    ∧ decode 0x1DC0024000000000 = .ok (.cbkld 9 0)
    ∧ decode 0x2E40E24000000000 = .ok (.sopen 0 9 0)
    ∧ decode 0x2E42370000000000 = .ok (.stend 6 0)
    ∧ decode 0x2E43E00000000000 = .ok (.sclose 0)
    ∧ decode 0x2C020A8000000000 = .ok (.vld ⟨.fp32, false⟩ ⟨0, false⟩ 1 10 0)
    ∧ decode 0x2C4212C000000000 = .ok (.vst ⟨.fp32, false⟩ 0 false 2 11 0)
    ∧ decode 0x2D022B0C00010000 = .ok (.vldx ⟨.fp32, false⟩ ⟨0, false⟩ 5 12 6 2 0) := by
  refine ⟨?_, ?_, ?_, ?_, ?_, ?_, ?_, ?_, ?_, ?_, ?_, ?_, ?_⟩ <;> rfl

theorem test_spec_words_2 :
    decode 0x3002288000000000 = .ok (.vred .add ⟨.fp32, false⟩ 0 5 2 0)
    ∧ decode 0x305B188000000008 = .ok (.vscan .add true ⟨.int32, true⟩ ⟨0, false⟩ 3 2 0)
    ∧ decode 0x3100204004000000 = .ok (.vcompress 2 4 1)
    ∧ decode 0x2C820A9800000000 = .ok (.vlds ⟨.fp32, false⟩ ⟨0, false⟩ 1 10 12 0)
    ∧ decode 0x2E81E00000000000 = .ok (.fadv 0)
    ∧ decode 0x2E80E3C000000000 = .ok (.fopen 0 15 0)
    ∧ decode 0x1602293800000000 = .ok (.setvlStream 5 4 0)
    ∧ decode 0x3405128200000017 = .ok (.plpack ⟨.t8, false⟩ 0 true 7 2 10 1 0)
    ∧ decode 0x34800A96C0000077 = .ok (.mma 7 7 false 1 10 11 12)
    ∧ decode 0x34C0080000000000 = .ok (.mzero 1)
    ∧ decode 0x35400B5C00000000 = .ok (.mst 1 13 14 0)
    ∧ decode 0x1885000000000082 = .ok (.fence .pk false 2 1)
    ∧ decode 0x188D000000000082 = .ok (.fence .pk true 2 1) := by
  refine ⟨?_, ?_, ?_, ?_, ?_, ?_, ?_, ?_, ?_, ?_, ?_, ?_, ?_⟩ <;> rfl

theorem test_spec_words_3 :
    decode 0x18864800000000C0 = .ok (.fencePd false 9 0x40 1)
    ∧ decode 0x10C52AC000000000 = .ok (.stRel .pk 5 11 0)
    ∧ decode 0x108532C000000000 = .ok (.ldAcq .pk 6 11 0)
    ∧ decode 0x18C02A4C70000000 = .ok (.waitaddr 5 9 6 7 0)
    ∧ decode 0x18C2298070000000 = .ok (.cewait 5 6 7)
    ∧ decode 0x18C3029600000000 = .ok (.lnempty 10 11 0)
    ∧ decode 0x16C0280000000208 = .ok (.csrr 5 0x208)
    ∧ decode 0x1C002C0000000000 = .ok (.welt 5 16 0)
    ∧ decode 0x19002A4000000000 = .ok (.launch 5 9 0)
    ∧ decode 0x1940298000000000 = .ok (.join 5 6)
    ∧ decode 0x1941280000000000 = .ok (.leave 5)
    ∧ decode 0x1942000000000000 = .ok (.yield)
    ∧ decode 0x1943000000000000 = .ok (.exit 0) := by
  refine ⟨?_, ?_, ?_, ?_, ?_, ?_, ?_, ?_, ?_, ?_, ?_, ?_, ?_⟩ <;> rfl

theorem test_spec_words_4 :
    decode 0x19802A4C00000000 = .ok (.byinit 5 9 6 0)
    ∧ decode 0x19812A4000000001 = .ok (.byarrive 5 9 1)
    ∧ decode 0x19822A4C70000000 = .ok (.bywait 5 9 6 7 0)
    ∧ decode 0x01405DAAA0000000 = .ok (.sel 11 22 21 10)
    ∧ decode 0x2D82228400004003 = .ok (.vgath ⟨.fp32, false⟩ ⟨0, false⟩ 4 10 2 4 3)
    ∧ decode 0x2DCB2B0C00003000 = .ok (.vscat ⟨.int32, false⟩ 0 5 12 6 3 0)
    ∧ decode 0x2E023AC600002000 = .ok (.vscadd ⟨.fp32, false⟩ 0 7 11 3 2 0)
    ∧ decode 0x1C40298000000000 = .ok (.bcnopen 5 6)
    ∧ decode 0x1C802A4E00010000 = .ok (.beacon 5 9 7 2 0)
    ∧ decode 0x1CC0280000000002 = .ok (.bcnclose 5 2)
    ∧ decode 0x3820024E00000008 = .ok (.rred .add .f32 9 7 8)
    ∧ decode 0x38402A9600000003 = .ok (.rwset 5 3 10 11)
    ∧ decode 0x3880029600000000 = .ok (.fmap 10 11) := by
  refine ⟨?_, ?_, ?_, ?_, ?_, ?_, ?_, ?_, ?_, ?_, ?_, ?_, ?_⟩ <;> rfl
/-! ## Witnesses: states and operands that meet the hypotheses of each statement, clause by clause -/

theorem base_handled : TrapsHandled base := ⟨by decide +kernel, by decide +kernel⟩
theorem job_handled : TrapsHandled job := ⟨by decide +kernel, by decide +kernel⟩

/-- DecodeSpecWords. -/
theorem witness_DecodeSpecWords :
    (∃ r, decode 0x3FFFFFFFFFFFFFFF = .error r) ∧ TrapsHandled base ∧ (0xC000000000000000 : Word).extractLsb' 62 2 = 3
    ∧ ((0x78 : BitVec 8).toNat ≤ 0x7F) ∧ (0xF0 ≤ (0xF0 : BitVec 8).toNat) :=
  ⟨⟨_, rfl⟩, base_handled, by decide, by decide, by decide⟩

/-- DecodeOfEncode, EncodeOfDecode. -/
theorem witness_DecodeOfEncode : Instr.wf (.beacon 31 30 29 15 0x7FFF) = true ∧ encode (.beacon 31 30 29 15 0x7FFF) = some 0x1C80FFBA0007FFFF :=
  ⟨rfl, rfl⟩
theorem witness_EncodeOfDecode : decode 0x1C80FFBA01FFFFFF = .ok (.beacon 31 30 29 15 0x7FFF) := rfl

/-- StepRunsDecoded: an instruction that may issue, one that waits for its operand, a word that is none, and a word that cannot be fetched. -/
theorem witness_StepRunsDecoded :
    let s := base
    let w := { base with me := { base.me with vals := [⟨1, 5⟩] } }
    let f := { base with me := { base.me with pc := 0x0010000000000000 } }
    (s.agenda = [] ∧ s.powered = true ∧ s.turn = .issue ∧ s.mayIssue = true ∧ s.fetchAt s.me.pc = .ok 0x0040000000000000)
    ∧ s.me.issuable (.add 0 0 0) = true ∧ w.me.issuable (.beq 1 0 0) = false
    ∧ (∃ r, decode 0 = .error r) ∧ (putWord s 0x200000 0).fetchAt s.me.pc = .ok 0
    ∧ f.mayIssue = true ∧ f.fetchAt f.me.pc = .error ⟨4, 0⟩ ∧ TrapsHandled f := by
  refine ⟨⟨?_, ?_, ?_, ?_, ?_⟩, ?_, ?_, ⟨_, rfl⟩, ?_, ?_, ?_, ⟨?_, ?_⟩⟩ <;> (first | decide +kernel | rfl)

/-- StepOtherwise. -/
theorem witness_StepOtherwise :
    let off := { base with powered := false }
    ({ base with agenda := [.yield] }).agenda = .yield :: [] ∧ ({ off with agenda := [.coldReset] }).powered = false
    ∧ (off.agenda = [] ∧ off.powered = false) ∧ (State.reset.turn = .issue ∧ State.reset.mayIssue = false)
    ∧ ({ base with turn := .engine }).turn = .engine ∧ ({ base with turn := .rotate }).agenda = [] := by
  refine ⟨?_, ?_, ⟨?_, ?_⟩, ⟨?_, ?_⟩, ?_, ?_⟩ <;> decide +kernel

/-- Three threads of a core that could issue (01 R27): the one in focus, one of the strictest level, one passed over n times. -/
def slots (n : Nat) : State :=
  { base with
    turn := .rotate
    me := { base.me with level := 1 }
    others := [{ base.me with tid := 5, level := 2, passed := n }, { base.me with tid := 6, level := 0 }] }

/-- StepOtherwise, the slot: the strictest level takes it, until another context has been passed over 63 times. -/
theorem test_issue_slot :
    (slots 62).rotate.me.tid = 6 ∧ (slots 62).rotate.others.map (fun t => (t.tid, t.passed)) = [(5, 63), (base.me.tid, 1)]
    ∧ (slots 63).rotate.me.tid = 5 ∧ (slots 62).leavesSlot (slots 62).me = true ∧ (slots 63).couldIssue (slots 63).me = true := by
  refine ⟨?_, ?_, ?_, ?_, ?_⟩ <;> decide +kernel

/-- StepKeepsMemory. -/
theorem witness_StepKeepsMemory : base.mem.wf = true ∧ ∃ t, step base = .next t := by
  refine ⟨by decide +kernel, after (step base), ?_⟩
  have h : answersNext (step base) = true := by decide +kernel
  revert h
  cases step base <;> simp [answersNext, after]

/-- A state with a leaf at VA 2^40 for package 5, which can be reached, and a second for package 6, which cannot. -/
def pod : State :=
  let s := putWord (putWord base 0x100008 0x000050000000013D) 0x100010 0x000060000000013D
  { s with fab := { s.fab with routes := [(5, 0x8000000000000000)] } }

/-- LoadsComplete: the last bytes below 1 TiB, the capability table, and the reply of another package; every size. -/
theorem witness_LoadsComplete :
    (∀ p ∈ [(1, [7]), (2, [7, 8]), (4, [7, 8, 9, 10]), (8, [7, 8, 9, 10, 11, 12, 13, 0x80])],
      let s := put base (0xFFFFFFFFFF + 1 - p.1) p.2
      ∃ s1, LoadGives s (BitVec.ofNat 64 (0xFFFFFFFFFF + 1 - p.1)) p.1 p.2 s1)
    ∧ LoadGives base 0x000FFF8000000000 8 [0x01, 0x00, 0x50, 0x41, 0x43, 0x53, 0x00, 0x00] base
    ∧ (let s := { pod with me := { pod.me with remote := [⟨3, 5, 0x10, 4, 0, .data [(1, false), (2, false), (3, false), (4, false)]⟩] } }
      ∃ s1, LoadGives s 0x10000000010 4 [1, 2, 3, 4] s1) := by
  refine ⟨?_, ?_, ?_⟩
  · intro p hp
    have h : p = (1, [7]) ∨ p = (2, [7, 8]) ∨ p = (4, [7, 8, 9, 10]) ∨ p = (8, [7, 8, 9, 10, 11, 12, 13, 0x80]) := by simpa using hp
    rcases h with h | h | h | h <;> subst h
    · exact ⟨_, ⟨.near 0xFFFFFFFFFF, some 0, true⟩, of_okIs (by decide +kernel), .inl ⟨0xFFFFFFFFFF, rfl, by decide +kernel, by decide +kernel, by decide +kernel, rfl⟩⟩
    · exact ⟨_, ⟨.near 0xFFFFFFFFFE, some 0, true⟩, of_okIs (by decide +kernel), .inl ⟨0xFFFFFFFFFE, rfl, by decide +kernel, by decide +kernel, by decide +kernel, rfl⟩⟩
    · exact ⟨_, ⟨.near 0xFFFFFFFFFC, some 0, true⟩, of_okIs (by decide +kernel), .inl ⟨0xFFFFFFFFFC, rfl, by decide +kernel, by decide +kernel, by decide +kernel, rfl⟩⟩
    · exact ⟨_, ⟨.near 0xFFFFFFFFF8, some 0, true⟩, of_okIs (by decide +kernel), .inl ⟨0xFFFFFFFFF8, rfl, by decide +kernel, by decide +kernel, by decide +kernel, rfl⟩⟩
  · exact ⟨⟨.cap 0, some 0, false⟩, of_okIs (by decide +kernel), .inr (.inl ⟨0, rfl, by decide +kernel, rfl⟩)⟩
  · exact ⟨_, ⟨.far 5 0x10, some 0, false⟩, of_okIs (by decide +kernel), .inr (.inr ⟨5, 0x10, _, _, rfl, rfl, rfl, rfl, rfl, rfl⟩)⟩

/-- StoresComplete. -/
theorem witness_StoresComplete :
    base.checkAccess .store 0xFFFFFFFFF8 8 = .ok ⟨.near 0xFFFFFFFFF8, some 0, true⟩
    ∧ base.checkAccess .store 0xFFFFFFFFFF 1 = .ok ⟨.near 0xFFFFFFFFFF, some 0, true⟩ ∧ base.mem.wf = true
    ∧ (0xFFFFFFFFF8 : Nat) % 8 = 0 := by and_intros <;> (first | decide +kernel | rfl)

/-- A state whose line at the core window's start is empty and whose word at 0x8000 is poisoned. -/
def marked : State := { base with mem := (base.mem.setEmpty [coreSram 0 / 128]).setPoison [0x1000] }

/-- AccessesTrapOrWait, clause by clause: a misaligned address, a table entry that is not valid, a package that cannot be reached, an atomic
to another package, an empty line, a poisoned word; and addresses at the ends of the ranges of its second part. -/
theorem witness_AccessesTrapOrWait :
    TrapsHandled marked
    ∧ (8001 : Word).toNat % 8 ≠ 0
    ∧ base.translate base.env .load none 0x0000030000000000 = .error ⟨7, 0⟩
    ∧ (pod.translate pod.env .load none 0x0000020000000000 = .ok ⟨.far 6 0, some 0, false⟩ ∧ pod.reaches 6 = false)
    ∧ pod.translate pod.env .atomic none 0x0000010000000000 = .ok ⟨.far 5 0, some 0, false⟩
    ∧ (marked.checkAccess .load 0x000FFF1000000000 8 = .ok ⟨.near (coreSram 0), some 0, false⟩ ∧ marked.mem.isEmptyAt (coreSram 0) 8 = true)
    ∧ (marked.checkAccess .atomic 0x8004 4 = .ok ⟨.near 0x8004, some 0, true⟩ ∧ marked.mem.isEmptyAt 0x8004 4 = false
      ∧ marked.mem.poisonAt 0x8004 4 = some 0x1000)
    ∧ (2 ^ 52 ≤ (0x0010000000000000 : Word).toNat)
    ∧ ((0x000FFF0FFFFFFFFF : Word).toNat < 0x000FFF1000000000) ∧ ((0x000FFF10000FFFFF : Word).toNat < 0x000FFF1000100000) := by
  refine ⟨⟨?_, ?_⟩, ?_, ?_, ⟨?_, ?_⟩, ?_, ⟨?_, ?_⟩, ⟨?_, ?_, ?_⟩, ?_, ?_, ?_⟩ <;> (first | decide +kernel | rfl)

/-- AcquireAndRelease, AtomicsComplete. -/
theorem witness_AcquireAndRelease :
    base.checkAccess .load 0x8000 8 = .ok ⟨.near 0x8000, some 0, true⟩ ∧ base.mem.isEmptyAt 0x8000 8 = false
    ∧ base.mem.poisonAt 0x8000 8 = none ∧ base.checkAccess .load 0x8004 4 = .ok ⟨.near 0x8004, some 0, true⟩
    ∧ base.mem.isEmptyAt 0x8004 4 = false ∧ base.mem.poisonAt 0x8004 4 = none
    ∧ base.checkAccess .store 0x8000 8 = .ok ⟨.near 0x8000, some 0, true⟩
    ∧ base.checkAccess .store 0x8004 4 = .ok ⟨.near 0x8004, some 0, true⟩ ∧ base.mem.wf = true := by and_intros <;> (first | decide +kernel | rfl)
theorem witness_AtomicsComplete :
    base.checkAccess .atomic 0x8000 8 = .ok ⟨.near 0x8000, some 0, true⟩ ∧ base.checkAccess .atomic 0x8004 4 = .ok ⟨.near 0x8004, some 0, true⟩
    ∧ base.mem.isEmptyAt 0x8000 8 = false ∧ base.mem.isEmptyAt 0x8004 4 = false ∧ base.mem.poisonAt 0x8000 8 = none
    ∧ base.mem.poisonAt 0x8004 4 = none ∧ base.mem.wf = true := by and_intros <;> (first | decide +kernel | rfl)

/-- PrefetchesComplete. -/
theorem witness_PrefetchesComplete :
    base.translate base.env .load none 0x0000030000000000 = .error ⟨7, 0⟩ ∧ base.translate base.env .fetch none 0x0000030000000000 = .error ⟨4, 0⟩ := by
  and_intros <;> (first | decide +kernel | rfl)

/-- Branches, Jumps. -/
theorem witness_Branches :
    let s := { base with me := { base.me with vals := [⟨7, 5⟩] } }
    (s.me.pending 7 || s.me.pending 0) = true ∧ (8 : Word).toNat % 8 = 0 ∧ (4 : Word).toNat % 8 ≠ 0 := by decide +kernel

/-- VectorLength: an execute-class instruction under way that moves a stream, by a number that is known and by one that is not (CMP = 1), an
open stream, VTYPE valid and not. -/
def typed : State := { base with me := { base.me with vtype := ⟨false, false, false, 0, 3⟩, rows := 32, cols := 32 } }
def streaming : State :=
  { typed with me := typed.me.setStream 1 { Stream.closed with desc := BitVec.ofNat 512 (2 * 2 ^ 228 + 2 ^ 232 + 10 * 2 ^ 128 + 4 * 2 ^ 256 + 0x8000), opened := true } }
def packing : State :=
  let s : State := { streaming with me := streaming.me.setStream 1 { streaming.me.streams[1] with desc := (streaming.me.streams[1]).desc ||| (1#512 <<< 225) } }
  after (exec (.vmv ⟨0, true⟩ 4 29) { s with me := { s.me with vl := 8 } })
def popping : State := after (exec (.vmv ⟨0, false⟩ 4 29) { { streaming with lag := true } with me := { streaming.me with vl := 8 } })
theorem witness_VectorLength :
    typed.me.vtype.vill = false ∧ typed.me.win = [] ∧ (typed.me.streams[1]).opened = false
    ∧ ((streaming.me.streams[1]).opened = true ∧ (streaming.me.streams[1]).fib = false ∧ sdT (streaming.me.streams[1]).desc = 10)
    ∧ (popping.me.streamsPending 1 = false ∧ popping.me.win ≠ []) ∧ packing.me.streamsPending 1 = true ∧ base.me.vtype.vill = true := by decide +kernel

/-- CsrForms, CsrWrites. -/
theorem witness_CsrForms :
    CsrReady base 0x400 ∧ CsrReady job 0x53C ∧ AssignedCsr 0x000 ∧ (popping.me.held = false ∧ popping.me.win ≠ [])
    ∧ ¬ AssignedCsr 0x006 ∧ ¬ AssignedCsr 0xFFF ∧ AssignedCsr 0x300 ∧ SupervisorCsr 0x300 ∧ job.me.priv = .job ∧ TrapsHandled job := by
  refine ⟨⟨by unfold AssignedCsr; decide, fun _ => by decide +kernel, fun h => ?_, fun h => ?_⟩, ⟨by unfold AssignedCsr; decide, fun h => ?_, fun h => ?_, fun h => ?_⟩,
    by unfold AssignedCsr; decide, ⟨by decide +kernel, by decide +kernel⟩, by unfold AssignedCsr; decide, by unfold AssignedCsr; decide,
    by unfold AssignedCsr; decide, by unfold SupervisorCsr; decide, by decide +kernel, job_handled⟩
  · omega
  · omega
  · unfold SupervisorCsr at h; omega
  · omega
  · omega
theorem witness_CsrWrites :
    csrMask 0x309 ≠ 0 ∧ csrMask 0x000 ≠ 0 ∧ csrMask 0x001 = 0 ∧ ClusterKnown base := by
  refine ⟨by decide, by decide, by decide, ?_⟩
  unfold ClusterKnown
  decide +kernel

/-- Drain: each queue with something in it, and all empty. -/
theorem witness_Drain :
    (popping.me.held = false ∧ popping.me.win.any (fun e => !e.queued) = true) ∧ base.me.win = [] ∧ base.me.vals = [] ∧ base.me.st = [] := by
  decide +kernel

/-- SoftwareTrap: both privilege levels. -/
theorem witness_SoftwareTrap : TrapsHandled base ∧ TrapsHandled job ∧ job.me.priv = .job := ⟨base_handled, job_handled, by decide +kernel⟩

/-- A live launch 0 of one thread whose record goes to 0x9000, and a faulted one. -/
def launchBlock (words : List Nat) : BitVec 512 := BitVec.ofNat 512 (words.foldr (fun w n => w + 2 ^ 64 * n) 0)
def plainBlock : BitVec 512 := launchBlock [0x200000, 7, 0x0800000000000001, 0x5500000000, 0, 0, 0x9000, 0]
def launch0 : Launch := ⟨0, plainBlock, 0x100000, true, 1, 0, 0, 0, 0, 0, 0, 0, 0, none, 0, false⟩
def owned : State := { base with launches := [launch0] }

/-- UnhandledTrapEndsLaunch: no handler, a trap in progress, and a launch that has faulted before. -/
theorem witness_UnhandledTrapEndsLaunch :
    let s := { owned with me := { owned.me with tvec := 0 } }
    let t := { owned with me := { owned.me with tip := true }, launches := [{ launch0 with faults := 0xFFFFFFFF }] }
    (s.me.tvec = 0 ∧ s.me.status ≠ .retired ∧ launch0 ∈ s.launches ∧ launch0.lid = s.me.lid ∧ launch0.live = true ∧ launch0.faults = 0)
    ∧ (t.me.tip = true ∧ t.me.status ≠ .retired ∧ { launch0 with faults := 0xFFFFFFFF } ∈ t.launches) := by and_intros <;> decide +kernel

/-- TrapReturn: with a window held, without one, and at job level. -/
theorem witness_TrapReturn :
    (base.me.priv = .sup ∧ base.me.held = false ∧ base.me.win = [])
    ∧ ({ popping with me := { popping.me with held := true } }.me.win ≠ [] ∧ popping.me.priv = .sup)
    ∧ job.me.priv = .job ∧ TrapsHandled job := by
  refine ⟨⟨?_, ?_, ?_⟩, ⟨?_, ?_⟩, ?_, job_handled⟩ <;> decide +kernel

/-- JoinAndLeave: no such crew, the thread's own, a gang's, another; in a crew and in none. -/
theorem witness_JoinAndLeave :
    let s := { withX base [(1, 5), (2, 6), (3, 7), (4, 0x10000)] with
      crews := [⟨5, 2, none, 0⟩, ⟨6, 2, some (0, 8), 1⟩, ⟨8, 1, none, 0⟩], me := { (withX base [(1, 5), (2, 6), (3, 7), (4, 0x10000)]).me with crew := 8 } }
    s.crews.find? (fun r => r.num == (s.getX 1).extractLsb' 0 16) = some ⟨5, 2, none, 0⟩ ∧ (s.getX 1).extractLsb' 0 16 ≠ s.me.crew
    ∧ s.crews.find? (fun r => r.num == (s.getX 2).extractLsb' 0 16) = some ⟨6, 2, some (0, 8), 1⟩
    ∧ s.crews.find? (fun r => r.num == (s.getX 3).extractLsb' 0 16) = none ∧ (s.getX 4).extractLsb' 0 16 = 0
    ∧ s.me.crew ≠ 0 ∧ base.me.crew = 0 ∧ s.crews.find? (fun r => r.num == s.me.crew) = some ⟨8, 1, none, 0⟩ := by and_intros <;> decide +kernel

/-- Launches: a block that is accepted, one whose count is over the limit, and one that finds no room. -/
def bigBlock : BitVec 512 := launchBlock [0x200000, 7, 0x0800000000100001, 0, 0, 0, 0x9000, 0]
def blocks : State := put (put base 0x8000 (leBytes 64 plainBlock.toNat)) 0x8040 (leBytes 64 bigBlock.toNat)
theorem plain_good (s : State) (h : (s.cluster 0).enabled = true) : ∀ n, ¬ LaunchBad s plainBlock n := by
  let b := plainBlock
  intro n
  match n with
  | 0 => exact id
  | 1 => exact (by decide +kernel : ¬ ((b.extractLsb' 0 64).toNat % 8 ≠ 0 ∨ 2 ^ 52 ≤ (b.extractLsb' 0 64).toNat))
  | 2 => exact (by decide +kernel : ¬ ((b.extractLsb' 128 32).toNat = 0 ∨ 1048576 < (b.extractLsb' 128 32).toNat))
  | 3 => exact (by decide +kernel : ¬ (3 < (b.extractLsb' 176 8).toNat ∨ (b.extractLsb' 184 8).toNat = 0 ∨ 8 < (b.extractLsb' 184 8).toNat
      ∨ b.extractLsb' 195 4 ≠ 0 ∨ b.extractLsb' 200 24 ≠ 0))
  | 4 => exact fun h => absurd h.1 (by decide +kernel)
  | 5 => exact fun h5 => h5.elim (absurd · (by decide +kernel)) (fun k => k ⟨0, by decide, h, .inl (by decide +kernel)⟩)
  | 6 => exact (by decide +kernel : ¬ (b.extractLsb' 384 64 = 0 ∨ (b.extractLsb' 384 64).toNat % 64 ≠ 0 ∨ (b.extractLsb' 448 64).toNat % 4 ≠ 0))
  | 7 => exact fun h => h.elim (fun k => absurd k.2 (by decide +kernel)) (fun h => h.elim (fun k => absurd k.1 (by decide +kernel))
      (fun h => h.elim (fun k => absurd k.1 (by decide +kernel)) (fun k => absurd k.1 (by decide +kernel))))
  | 8 => exact fun h => absurd h.1 (by decide +kernel)
  | n + 9 => exact id
theorem full_unfit (s : State) (b : BitVec 512) (n : Nat) (h : 4096 ≤ n) : ¬ LaunchFits { s with launches := List.replicate n launch0 } b := by
  have live : launch0.live = true := rfl
  simp [LaunchFits, live]
  omega
def read0 : State := blocks.afterRead true blocks.me.need 0x8000
def read1 : State := blocks.afterRead true blocks.me.need 0x8040
theorem read0_gives : BlockGives blocks 0x8000 plainBlock read0 :=
  ⟨⟨.near 0x8000, some 0, true⟩, of_okIs (by decide +kernel), .inl ⟨0x8000, rfl, by decide +kernel, by decide +kernel, rfl, by decide +kernel⟩⟩
theorem read1_gives : BlockGives blocks 0x8040 bigBlock read1 :=
  ⟨⟨.near 0x8040, some 0, true⟩, of_okIs (by decide +kernel), .inl ⟨0x8040, rfl, by decide +kernel, by decide +kernel, rfl, by decide +kernel⟩⟩
theorem witness_Launches :
    (BlockGives blocks 0x8000 plainBlock read0 ∧ (∀ n, ¬ LaunchBad read0 plainBlock n) ∧ LaunchFits read0 plainBlock
      ∧ read0.me.status = .running ∧ read0.others.length + (plainBlock.extractLsb' 128 32).toNat < 2 ^ 24)
    ∧ (BlockGives blocks 0x8040 bigBlock read1 ∧ LaunchBad read1 bigBlock 2 ∧ ∀ m, m < 2 → ¬ LaunchBad read1 bigBlock m)
    ∧ ¬ LaunchFits { blocks with launches := List.replicate 4096 launch0 } plainBlock := by
  refine ⟨⟨read0_gives, plain_good _ (by decide +kernel), ?_, by decide +kernel, by decide +kernel⟩, ⟨read1_gives, ?_, ?_⟩, ?_⟩
  · unfold LaunchFits; decide +kernel
  · exact (by decide +kernel : (bigBlock.extractLsb' 128 32).toNat = 0 ∨ 1048576 < (bigBlock.extractLsb' 128 32).toNat)
  · intro m hm
    match m with
    | 0 => exact id
    | 1 => exact (by decide +kernel : ¬ ((bigBlock.extractLsb' 0 64).toNat % 8 ≠ 0 ∨ 2 ^ 52 ≤ (bigBlock.extractLsb' 0 64).toNat))
    | n + 2 => omega
  · exact full_unfit _ _ _ (Nat.le_refl _)

/-- ThreadAndLaunchEnd: exit with all queues empty and not, with a window held; lend of a live launch, of another thread's, of none; a launch
that is complete, with a record below the windows and with a signal word there. -/
def ended : Launch := { launch0 with retired := 1 }
def endedSig : Launch := { ended with block := launchBlock [0x200000, 7, 0x0800000000000001, 0x5500000000, 0, 0, 0x000FFF1000000000, 0xA000] }
theorem witness_ThreadAndLaunchEnd :
    let done (l : Launch) : State := { base with launches := [l] }
    let env : Env := ⟨0, 0xFF, 0x100000, .job⟩
    (base.me.held = false ∧ base.me.win = [] ∧ base.me.owed = [] ∧ base.me.vals = [] ∧ base.me.st = []) ∧ popping.me.win ≠ []
    ∧ (owned.me.priv = .sup ∧ owned.me.lid = 0 ∧ owned.launches.any (fun l => l.lid == 0 && l.live) = true)
    ∧ base.launches = [] ∧ job.me.priv = .job
    ∧ (done ended).launches.find? (fun l => l.lid == 0 && l.live) = some ended
    ∧ (ended.retired = (ended.block.extractLsb' 128 32).toNat ∧ base.clusters.all (fun c => c.copies.isEmpty && c.welts.isEmpty) = true
      ∧ base.me.gq = [] ∧ base.others = [] ∧ base.mem.wf = true)
    ∧ ((ended.block.extractLsb' 384 64).toNat < 0x000FFF0000000000 ∧ ended.block.extractLsb' 448 64 = 0
      ∧ (done ended).engineXlat env .store 0x9000 = .ok ⟨.near 0x9000, some 0, true⟩)
    ∧ (0x000FFF0000000000 ≤ (endedSig.block.extractLsb' 384 64).toNat ∧ (endedSig.block.extractLsb' 448 64).toNat < 0x000FFF0000000000
      ∧ endedSig.block.extractLsb' 448 64 ≠ 0 ∧ (done endedSig).engineXlat env .store 0xA000 = .ok ⟨.near 0xA000, some 0, true⟩) := by
  and_intros <;> (first | decide +kernel | rfl)

/-- YieldAndHints. -/
theorem witness_YieldAndHints :
    base.others = [] ∧ base.me.priv = .sup ∧ base.me.status = .running ∧ base.me.fault = none ∧ base.me.crew = 0
    ∧ base.halted base.me.core = false ∧ job.me.priv = .job ∧ TrapsHandled job := by
  refine ⟨?_, ?_, ?_, ?_, ?_, ?_, ?_, job_handled⟩ <;> decide +kernel

/-- A buoy at the start of the core's scratchpad: EXPECT 4, ARRIVED 1, PHASE 3, open, for every crew. -/
def buoyed : State := put base (coreSram 0) (leBytes 16 0x0000002300010004)

/-- WaitsBegin: a word that differs and one that does not, before and at the bound; a copy that is not there; a buoy; a poisoned word. -/
theorem witness_WaitsBegin :
    base.checkAccess .load 0x8000 8 = .ok ⟨.near 0x8000, some 0, true⟩ ∧ base.mem.poisonAt 0x8000 8 = none
    ∧ base.checkAccess .load 0x8004 4 = .ok ⟨.near 0x8004, some 0, true⟩ ∧ base.mem.poisonAt 0x8004 4 = none
    ∧ BitVec.ofNat 64 (base.mem.number 0x8000 8) ≠ 1 ∧ BitVec.ofNat 64 (base.mem.number 0x8000 8) = 0
    ∧ (min (base.time + 5) (2 ^ 64 - 1) > base.time ∧ min (base.time + 0) (2 ^ 64 - 1) ≤ base.time)
    ∧ BuoyAt buoyed .load 0x000FFF1000000000 (coreSram 0) ∧ buoyed.mem.poisonAt (coreSram 0) 8 = none
    ∧ BitVec.ofNat 4 (buoyed.mem.number (coreSram 0 + 4) 4) = 3
    ∧ (marked.checkAccess .load 0x8000 8 = .ok ⟨.near 0x8000, some 0, true⟩ ∧ marked.mem.poisonAt 0x8000 8 ≠ none) := by
  refine ⟨?_, ?_, ?_, ?_, ?_, ?_, ⟨?_, ?_⟩, ⟨?_, ?_, ?_, ⟨.near (coreSram 0), some 0, false⟩, ?_, ?_⟩, ?_, ?_, ⟨?_, ?_⟩⟩ <;> (first | decide +kernel | exact of_okIs (by decide +kernel))

/-- WaitsEnd: a word and a buoy, met and not. -/
def waitsOn (s : State) (w : Wait) : State := { s with me := { s.me with wait := some w, status := .waiting } }
def wordWait : Wait := ⟨.word, 0x8000, 0x8000, 1, 5, 100, none⟩
def buoyWait : Wait := ⟨.buoy, coreSram 0, 0x000FFF1000000000, 3, 5, 100, none⟩
theorem witness_WaitsEnd :
    (let s := waitsOn base wordWait
     s.me.wait = some wordWait ∧ wordWait.done = none ∧ s.me.status = .waiting ∧ s.halted s.me.core = false
      ∧ s.waitPoisoned wordWait s.me = false ∧ s.waitMet wordWait s.me = true
      ∧ (waitsOn (putWord base 0x8000 1) wordWait).waitMet wordWait s.me = false ∧ (s.tick 100).waitPoisoned wordWait s.me = false)
    ∧ (let s := waitsOn buoyed buoyWait
     s.me.wait = some buoyWait ∧ s.waitPoisoned buoyWait s.me = false ∧ s.waitMet buoyWait s.me = false
      ∧ (waitsOn base buoyWait).waitMet buoyWait s.me = true)
    ∧ (let s := waitsOn { base with mem := base.mem.setPoison [0x1000] } wordWait
     TrapsHandled s ∧ s.waitAt wordWait s.me = .error (9, 0, 0x8000) ∧ (s.tick 100).waitAt wordWait s.me = .error (9, 0, 0x8000)) := by
  and_intros <;> (first | decide +kernel | exact of_badIs (by decide +kernel))

/-- Nothing outstanding: every fence goes on. -/
theorem fenceReady_quiet {s : State} (hw : s.me.win = []) (hs : s.me.st = []) (hg : s.me.gq = [])
    (hc : ∀ c ∈ (s.cluster s.me.cluster).copies, c.tid ≠ s.me.tid) (hv : ∀ w ∈ (s.cluster s.me.cluster).welts, w.tid ≠ s.me.tid)
    (uo : Bool) (pred : BitVec 7) : FenceReady s uo pred := by
  simp [FenceReady, hw, hs, hg]
  exact ⟨fun _ => hc, fun _ => hv⟩

/-- Buoys: byinit; byarrive with fewer than, exactly and more than EXPECT, at a closed buoy and at another crew's. -/
theorem witness_Buoys :
    BuoyAt base .store 0x000FFF1000000000 (coreSram 0)
    ∧ (BuoyAt buoyed .atomic 0x000FFF1000000000 (coreSram 0) ∧ FenceReady buoyed true 7 ∧ buoyed.mem.isEmptyAt (coreSram 0) 16 = false
      ∧ buoyed.mem.poisonAt (coreSram 0) 16 = none ∧ buoyed.mem.wf = true)
    ∧ (let b := BitVec.ofNat 128 (buoyed.mem.number (coreSram 0) 16)
      b.getLsbD 37 = true ∧ b.extractLsb' 48 16 = 0 ∧ (b.extractLsb' 0 16).toNat < (b.extractLsb' 16 16).toNat + (4 : BitVec 8).toNat
      ∧ (b.extractLsb' 16 16).toNat + (3 : BitVec 8).toNat = (b.extractLsb' 0 16).toNat
      ∧ (b.extractLsb' 16 16).toNat + (2 : BitVec 8).toNat < (b.extractLsb' 0 16).toNat)
    ∧ (BitVec.ofNat 128 (base.mem.number (coreSram 0) 16)).getLsbD 37 = false
    ∧ (let s := put base (coreSram 0) (leBytes 16 0x0009002300010004)
      let b := BitVec.ofNat 128 (s.mem.number (coreSram 0) 16)
      b.getLsbD 37 = true ∧ b.extractLsb' 48 16 ≠ 0 ∧ b.extractLsb' 48 16 ≠ s.me.crew) := by
  have ready : FenceReady buoyed true 7 := fenceReady_quiet (by decide +kernel) (by decide +kernel) (by decide +kernel) (by decide +kernel) (by decide +kernel) _ _
  refine ⟨⟨?_, ?_, ?_, ⟨.near (coreSram 0), some 0, false⟩, ?_, ?_⟩, ⟨⟨?_, ?_, ?_, ⟨.near (coreSram 0), some 0, false⟩, ?_, ?_⟩, ready, ?_, ?_, ?_⟩,
    ⟨?_, ?_, ?_, ?_, ?_⟩, ?_, ⟨?_, ?_, ?_⟩⟩ <;> (first | decide +kernel | exact of_okIs (by decide +kernel))

/-- FencesAndEmptyLines: a fence that goes on and one that waits; each state of a fence at pod scope; lnempty of the last lines of the core's
scratchpad and of a misaligned address. -/
theorem witness_FencesAndEmptyLines :
    FenceReady base false 0x7F ∧ ¬ FenceReady popping true 2
    ∧ (base.me.ask = .none ∧ WritesLeft base ∧ base.me.sweep = [])
    ∧ ({ base with me := { base.me with ask := .sweeping 3 [] [(9, 2)] } }).me.ask = .sweeping 3 [] [(9, 2)]
    ∧ ({ base with me := { base.me with sweep := [(9, 2)] } }).me.sweep ≠ []
    ∧ ((0x000FFF10000FFF00 : Word).toNat % 128 = 0 ∧ isScratch (coreSram 0 + 0xFFF00) = true ∧ isScratch (coreSram 0 + 0xFFF80) = true
      ∧ base.translate base.env .load none 0x000FFF10000FFF00 = .ok ⟨.near (coreSram 0 + 0xFFF00), some 0, false⟩
      ∧ base.translate base.env .load none 0x000FFF10000FFF80 = .ok ⟨.near (coreSram 0 + 0xFFF80), some 0, false⟩)
    ∧ ((0x000FFF1000000040 : Word).toNat % 128 ≠ 0) := by
  have busy : ¬ FenceReady popping true 2 := fun h => by
    cases hw : popping.me.win with
    | nil => exact absurd hw (by decide +kernel)
    | cons e r => exact absurd ((h.1 (by decide)).1 (0, e) ⟨by decide +kernel, by simp [hw]⟩).1 (by decide)
  have left : WritesLeft base := ⟨by decide +kernel, by decide +kernel, fun k e _ h => by simp [show base.me.win = [] from by decide +kernel] at h⟩
  refine ⟨fenceReady_quiet (by decide +kernel) (by decide +kernel) (by decide +kernel) (by decide +kernel) (by decide +kernel) _ _, busy, ⟨?_, left, ?_⟩, ?_, ?_, ⟨?_, ?_, ?_, ?_, ?_⟩, ?_⟩ <;> (first | decide +kernel | exact of_okIs (by decide +kernel))

/-- A thread of eight elements of 32 bits: v4 holds 3, -1 and v5 holds 5, 2 in their first elements, as INT32; stream 1 is open. -/
def vecs : State :=
  { streaming with me := { (((streaming.me.vwrite 4 32 0 [(0, 3), (1, 0xFFFFFFFF)]).vwrite 5 32 0 [(0, 5), (1, 2)]).setTag 4 1 11).setTag 5 1 11 with
      vl := 8 } }
def held (s : State) : State := { s with me := { s.me with held := true } }

/-- An entry of the window for an operation on eight elements, in the lane queues; its result has tag INT32. -/
def entryOf (op : EOp) : Entry :=
  ⟨0, 0x200000, false, op, none, op.xs.map (fun _ => 0x8000), 8, ⟨false, false, false, 0, 3⟩, 0, 0, 0, 0, 0, 0, 0, true, 0, [], op.returns,
    op.returns.isSome, false, 0, false, 11, 0, none, [], 0, false, false⟩
def workOf (op : EOp) : Work := (entryOf op).work 0 false op

/-- ExecuteClassIssue: an operation of each kind that enters, one with VL = 0, one whose check fails, and a held window. -/
theorem witness_ExecuteClassIssue :
    (∀ op ∈ [EOp.vid ⟨.int32, false⟩ ⟨0, false⟩ 6, .vaddInt ⟨.int32, false⟩ ⟨1, true⟩ 6 4 (.vec 5), .kset 3, .vld ⟨.int32, false⟩ ⟨0, false⟩ 6 1 0,
        .vred .add ⟨.int32, false⟩ 0 9 4 1, .mzero 2, .sadv 1 2, .sclose 3, .vgamRd 9 4],
      opensStream op = false ∧ IssueOk vecs op ∧ ¬ PerformsNothing vecs op)
    ∧ (IssueOk typed (.vid ⟨.int32, false⟩ ⟨0, false⟩ 6) ∧ PerformsNothing typed (.vid ⟨.int32, false⟩ ⟨0, false⟩ 6) ∧ typed.me.win = [])
    ∧ ((held popping).me.held = true ∧ TrapsHandled (held popping))
    ∧ (base.me.held = false ∧ base.me.atIssue.issueFail (.vid ⟨.int32, false⟩ ⟨0, false⟩ 6) [] = some ⟨0x0A, 1, 0, 0, 0⟩) := by
  refine ⟨?_, ⟨⟨?_, ?_⟩, ?_, ?_⟩, ⟨?_, ?_, ?_⟩, ⟨?_, ?_⟩⟩
  · intro op hop
    have h : opensStream op = false ∧ (vecs.me.held = false ∧ vecs.me.atIssue.issueFail op (op.xs.map vecs.getX) = none)
        ∧ performsNothing op vecs.me.vl vecs.me.vstart.toNat vecs.me.shape = false := by revert op; decide +kernel
    exact ⟨h.1, h.2.1, fun hn => by rw [PerformsNothing, h.2.2] at hn; exact absurd hn (by decide)⟩
  all_goals first | decide +kernel | exact of_okIs (by decide +kernel) | exact of_badIs (by decide +kernel) | rfl

/-- ElementValues: both sources and the destination are read, signed and natural; mask bits are read. -/
theorem witness_ElementValues :
    let w := workOf (.vaddInt ⟨.int32, false⟩ ⟨0, false⟩ 6 4 (.vec 5))
    (vecs.operand w 4 32 1 = .ok 0xFFFFFFFF ∧ vecs.second w .int32 (.vec 5) 1 = .ok 2) ∧ (0xFFFFFFFF < 2 ^ 32)
    ∧ (vecs.operand { w with op := .vmadd ⟨.int32, false⟩ ⟨0, false⟩ 5 4 (.vec 5) } 5 32 0 = .ok 5)
    ∧ (vecs.me.kread 0 7 = .ok true ∧ vecs.me.kread 1 7 = .ok false)
    ∧ (vecs.operand { w with op := .vand ⟨0, false⟩ 6 4 (.vec 5) } 5 vecs.me.vtype.width 1 = .ok 2)
    ∧ predTrue .lt (-1) 2 ∧ ¬ predTrue .gt (-1) 2 := by
  refine ⟨⟨?_, ?_⟩, ?_, ?_, ⟨?_, ?_⟩, ?_, by unfold predTrue; decide, by unfold predTrue; decide⟩ <;> (first | decide +kernel | exact of_okIs (by decide +kernel))

/-- PairWords: two register forms, one that writes x0, two execute-class slots, and one of each. -/
theorem witness_PairWords :
    (vecs.me.only1 = false ∧ vecs.me.status = .running)
    ∧ (slotValue base ⟨.add, 5, 1, 2⟩ = some 0 ∧ slotValue base ⟨.li, 0, 0, 0x7FFF⟩ = some 0xFFFFFFFFFFFFFFFF)
    ∧ (slotOp ⟨.vmv, 6, 4, 0⟩ = some (.vmv ⟨0, false⟩ 6 4) ∧ IssueOk vecs (.vmv ⟨0, false⟩ 6 4) ∧ ¬ PerformsNothing vecs (.vmv ⟨0, false⟩ 6 4)) := by
  refine ⟨⟨?_, ?_⟩, ⟨?_, ?_⟩, ?_, ⟨?_, ?_⟩, ?_⟩
  · decide +kernel
  · decide +kernel
  · exact congrArg some (by decide +kernel : base.getX 1 + base.getX 2 = 0)
  · rfl
  · decide +kernel
  · decide +kernel
  · decide +kernel
  · unfold PerformsNothing; decide +kernel

/-- BlockReaders: descriptors of a stream and a fibre that are valid, one that is not, a window with an entry, a misaligned block. -/
def fibreBlock : BitVec 512 := BitVec.ofNat 512 (0x8000 + 0x9000 * 2 ^ 128 + 0xA000 * 2 ^ 192 + 2 * 2 ^ 352 + 2 * 2 ^ 384)
def described : State := put (put vecs 0xC000 (leBytes 64 (streaming.me.streams[1]).desc.toNat)) 0xC040 (leBytes 64 fibreBlock.toNat)
def usesBook : State := { described with me := { described.me with win := [entryOf (.vcvt ⟨0, false⟩ .dyn 0 ⟨.fp32, false⟩ ⟨.k4, false⟩ 6 4)] } }
theorem described_gives : BlockGives described 0xC000 (streaming.me.streams[1]).desc (described.afterRead true described.me.need 0xC000) :=
  ⟨⟨.near 0xC000, some 0, true⟩, of_okIs (by decide +kernel), .inl ⟨0xC000, rfl, by decide +kernel, by decide +kernel, rfl, by decide +kernel⟩⟩
theorem fibre_gives : BlockGives described 0xC040 fibreBlock (described.afterRead true described.me.need 0xC040) :=
  ⟨⟨.near 0xC040, some 0, true⟩, of_okIs (by decide +kernel), .inl ⟨0xC040, rfl, by decide +kernel, by decide +kernel, rfl, by decide +kernel⟩⟩
theorem witness_BlockReaders :
    (IssueOk described (.sopen 2 1 0) ∧ (∃ s1, BlockGives described 0xC000 (streaming.me.streams[1]).desc s1) ∧ sdValid (streaming.me.streams[1]).desc = true)
    ∧ (IssueOk described (.fopen 2 1 0) ∧ (∃ s1, BlockGives described 0xC040 fibreBlock s1) ∧ fdValid fibreBlock = true ∧ sdValid 0 = false ∧ fdValid 0 = false)
    ∧ described.me.win = [] ∧ (usesBook.me.win.any (fun e => !e.complete usesBook.me && e.ops.any usesCodebook)) = true
    ∧ described.checkAccess .load 0xC000 64 = .ok ⟨.near 0xC000, some 0, true⟩ ∧ pod.checkAccess .load 0x10000000000 64 = .ok ⟨.far 5 0, some 0, false⟩
    ∧ (0xC020 : Word).toNat % 64 ≠ 0 ∧ TrapsHandled described := by
  refine ⟨⟨⟨?_, ?_⟩, ⟨_, described_gives⟩, ?_⟩, ⟨⟨?_, ?_⟩, ⟨_, fibre_gives⟩, ?_, ?_, ?_⟩, ?_, ?_, ?_, ?_, ?_, ⟨?_, ?_⟩⟩ <;>
    first | decide +kernel | exact of_okIs (by decide +kernel)

/-- WholeOperations: streams open and closed, a fibre whose next row is read, mask bits, and elements of v4 in natural form. -/
def fibred : State :=
  { putWord (putWord described 0x8000 0x0000000500000002) 0x8008 5 with
    me := { (described.me.setStream 2 (Stream.fibreAt fibreBlock 0 0 0 [2, 2, 3])).setStream 3 Stream.oddHalf with vl := 2 } }
def only (s : State) (op : EOp) : State := { s with me := { s.me with win := [{ entryOf op with delivered := 0xFF, vl := 2 }] } }
theorem witness_WholeOperations :
    let s := { vecs with me := { vecs.me with vl := 2, v := (vecs.me.setTag 4 1 11).v } }
    (∀ op ∈ [EOp.sopen 2 1 0, .sadv 1 2, .stend 9 1, .sclose 1, .kpopc 9 1, .vred .add ⟨.int32, true⟩ 0 9 4 1],
      let e := { entryOf op with delivered := 0xFF, vl := 2 }
      (only s op).me.active = true ∧ (only s op).me.win = [e] ∧ e.queued = true ∧ e.op2 = none ∧ e.map0 ≠ BitVec.allOnes 256 ∧ e.held = []
        ∧ e.mq = false ∧ (∀ l ∈ List.range (only s op).me.lanes, e.delivered.getLsbD l = true) ∧ (only s op).me.portsOf op = [])
    ∧ ((vecs.me.stream 1).opened = true ∧ (vecs.me.stream 1).fib = false ∧ (vecs.me.stream 0).opened = false)
    ∧ ((fibred.me.stream 2).opened = true ∧ (fibred.me.stream 2).pos < fdRows (fibred.me.stream 2).desc
      ∧ (only fibred (.fopen 2 1 0)).readRow 0 2 fibreBlock (fdRow0 fibreBlock) = .ok (2, 3)
      ∧ (only fibred (.fadv 2)).readRow 0 2 fibreBlock (fdRow0 fibreBlock + 0 + 1) = .ok (5, 0)
      ∧ ({ fibred with me := fibred.me.setStream 2 (Stream.fibreAt fibreBlock 2 0 0 [2, 2, 3]) }.me.stream 2).pos = fdRows fibreBlock)
    ∧ ((∀ i, i < 2 → s.me.kread 0 i = .ok true) ∧ (∀ i, i < 2 → s.me.kread 1 i = .ok false) ∧ s.me.port 4 = none
      ∧ (∀ i, i < 2 → s.me.vread 4 32 i = .ok (if i = 0 then 3 else 0xFFFFFFFF))) := by
  refine ⟨by decide +kernel, ⟨?_, ?_, ?_⟩, ⟨?_, ?_, of_okIs ?_, of_okIs ?_, ?_⟩, ⟨?_, ?_, ?_, ?_⟩⟩
  all_goals first
    | decide +kernel
    | (intro i hi; match i, hi with
        | 0, _ => first | decide +kernel | exact of_okIs (by decide +kernel) | exact of_badIs (by decide +kernel) | rfl
        | 1, _ => first | decide +kernel | exact of_okIs (by decide +kernel) | exact of_badIs (by decide +kernel) | rfl
        | n + 2, h => exact absurd h (Nat.not_lt.mpr (Nat.le_add_left 2 n)))

/-- ContextSave: an image that can be written, a part that cannot, a misaligned base, a window that is not held, job level. -/
theorem witness_ContextSave :
    (base.me.priv = .sup ∧ base.me.win = [] ∧ base.me.st = [])
    ∧ (∃ s', base.writeImage 0x000FFF1000000000 356 base.me.image = (s', none))
    ∧ (∃ s', base.writeImage 0x30000000000 356 base.me.image = (s', some (⟨7, 1⟩, 0x30000000000)))
    ∧ (0x9080 : Word).toNat % 256 ≠ 0 ∧ ¬ (popping.me.win = [] ∨ popping.me.held = true) ∧ job.me.priv = .job ∧ base.mem.wf = true :=
  ⟨by and_intros <;> decide +kernel, ⟨_, Prod.ext rfl (by decide +kernel : (base.writeImage 0x000FFF1000000000 356 base.me.image).2 = none)⟩,
    ⟨_, Prod.ext rfl (by decide +kernel : (base.writeImage 0x30000000000 356 base.me.image).2 = some (⟨7, 1⟩, 0x30000000000))⟩, by and_intros <;> decide +kernel⟩

/-- What a read of image parts gives. -/
def imageIn (r : ImageRead) : Image := match r with | .words l => l | _ => []
def isImage (r : ImageRead) : Bool := match r with | .words _ => true | _ => false
theorem of_isImage {r : ImageRead} (h : isImage r = true) : r = .words (imageIn r) := by cases r <;> simp_all [isImage, imageIn]
def imageBytes (t : Thread) : List Byte := t.image.flatMap (fun p => leBytes 8 p.1.toNat)

/-- A thread with `vmv v6, v4` in its window and five groups of v4 dirty; its image stands at 0x9000. -/
def waiting : Thread :=
  { Thread.fresh 0 with
    v := (Vector.replicate 32 VFile.clean).set 4 ⟨Vector.replicate 32 7, 11, true, 5, 0xFFFFFFFF, 0⟩
    win := [{ entryOf (.vmv ⟨0, false⟩ 6 4) with word := (encode (.vmv ⟨0, false⟩ 6 4)).getD 0, queued := false }] }
def placedImage (t : Thread) : State :=
  { base with mem := { base.mem with bytes :=
      (((List.range 1400).zip (imageBytes t)).filter (fun p => p.2 != 0)).map (fun p => (0x9000 + p.1, p.2)) ++ base.mem.bytes } }
def imaged : State := placedImage waiting
def header (s : State) : Image := imageIn (s.readImage 0x9000 1024 4)
def wholeImage (s : State) : Image := imageIn (s.readImage 0x9000 (imgSize (header s)) 356)

/-- ContextRestore, clause by clause: an image that is restored, a grant too small for it, a poisoned header, no MAGIC, an entry that is none,
a misaligned base. -/
theorem witness_ContextRestore :
    (imaged.me.priv = .sup ∧ imaged.me.win = [] ∧ imaged.me.st = [] ∧ imaged.readImage 0x9000 1024 4 = .words (header imaged))
    ∧ ((firstPoison 0x9000 0 128 (header imaged)).or (imaged.entryPoison 0x9000 (header imaged)) = none
      ∧ imgValid (header imaged) = true ∧ imaged.readImage 0x9000 (imgSize (header imaged)) 356 = .words (wholeImage imaged)
      ∧ ((imgEntries (wholeImage imaged)).map (·.length)) = some 1
      ∧ (imgEntries (wholeImage imaged)).any (fun es => imgFits (wholeImage imaged) es 8 && !imgFits (wholeImage imaged) es 1) = true
      ∧ (List.range 4).all (fun n => !(imageNum (wholeImage imaged) (0x108 + 64 * n) 8).testBit 32) = true)
    ∧ (imaged.me.lanes = 8 ∧ ({ imaged with me := { imaged.me with lmask := 1 } }).me.lanes = 1)
    ∧ (let s := { imaged with mem := imaged.mem.setPoison [0x9008 / 8] }
      isImage (s.readImage 0x9000 1024 4) = true ∧ firstPoison 0x9000 0 128 (header s) = some 0x9008)
    ∧ (isImage (base.readImage 0x9000 1024 4) = true ∧ imgValid (header base) = false)
    ∧ (let s := placedImage { waiting with win := waiting.win.map (fun e => { e with word := 0 }) }
      imgValid (header s) = true ∧ isImage (s.readImage 0x9000 (imgSize (header s)) 356) = true ∧ (imgEntries (wholeImage s)).isNone = true)
    ∧ (0x9080 : Word).toNat % 256 ≠ 0 := by
  have h : isImage (imaged.readImage 0x9000 1024 4) = true
      ∧ (firstPoison 0x9000 0 128 (header imaged)).or (imaged.entryPoison 0x9000 (header imaged)) = none
      ∧ imgValid (header imaged) = true ∧ isImage (imaged.readImage 0x9000 (imgSize (header imaged)) 356) = true
      ∧ ((imgEntries (wholeImage imaged)).map (·.length)) = some 1
      ∧ (imgEntries (wholeImage imaged)).any (fun es => imgFits (wholeImage imaged) es 8 && !imgFits (wholeImage imaged) es 1) = true
      ∧ (List.range 4).all (fun n => !(imageNum (wholeImage imaged) (0x108 + 64 * n) 8).testBit 32) = true := by decide +kernel
  exact ⟨⟨rfl, rfl, rfl, of_isImage h.1⟩, ⟨h.2.1, h.2.2.1, of_isImage h.2.2.2.1, h.2.2.2.2⟩, by decide +kernel, by decide +kernel,
    by decide +kernel, by decide +kernel, by decide +kernel⟩

/-- Channel 3 of the thread to package 5, which can be reached, as can package 6. -/
def chan3 : Sender := ⟨3, 0, 0, 5, 7, true, [], none, false⟩
def beaconed (l : List Sender) : State := { pod with fab := { pod.fab with senders := l, routes := [(5, 0x8000000000000000), (6, 0x8000000000000000)] } }
def resting (count now : Nat) : List (Nat × Nat) := (List.range count).map (fun n => (n, now + 1))
theorem mem_resting {count n : Nat} (now : Nat) (h : n < count) : (n, now + 1) ∈ resting count now :=
  List.mem_map_of_mem (f := fun n => (n, now + 1)) (List.mem_range.mpr h)
def noneFree (s : State) (l : List (Nat × Nat)) : State := { s with fab := { s.fab with freed := l } }
theorem noneFree_freeChan (s : State) (l : List (Nat × Nat)) (h : ∀ n, n < 65536 → (n, s.time + 1) ∈ l) : (noneFree s l).freeChan = none := by
  unfold State.freeChan
  rw [List.find?_eq_none]
  intro n hn
  obtain ⟨i, -, rfl⟩ := List.mem_map.mp hn
  have hm := h (((noneFree s l).fab.nextChan + i) % 65536) (Nat.mod_lt _ (Nat.zero_lt_succ _))
  intro hk
  have h2 := (List.all_eq_true.mp (Bool.and_eq_true_iff.mp hk).2) _ hm
  rw [show (noneFree s l).time = s.time from rfl] at h2
  simp only [bne_self_eq_false, Bool.false_or, decide_eq_true_eq] at h2
  omega
theorem witness_BeaconInstructions :
    let s := beaconed [chan3]
    let full := beaconed ((List.range 16).map (fun n => { chan3 with chan := n, slot := n }))
    s.me.ask = .none ∧ (routeV (s.route 7) = false ∧ s.pkgnum.toNat = 0)
    ∧ (routeV (s.route 6) = true ∧ (full.fab.senders.filter (fun c => c.tid == full.me.tid)).length = 16)
    ∧ (chan3 ∈ s.fab.senders.filter (fun c => c.tid == s.me.tid) ∧ chan3.pkg = 5 ∧ (s.fab.senders.filter (fun c => c.tid == s.me.tid)).length = 1)
    ∧ (noneFree s (resting 65536 s.time)).freeChan = none
    ∧ (s.freeChan = some 0 ∧ (∀ c ∈ s.fab.senders.filter (fun c => c.tid == s.me.tid), c.pkg ≠ 6))
    ∧ (s.fab.senders.find? (fun c => c.tid == s.me.tid && c.slot == 0 && c.opened) = some chan3
      ∧ s.fab.senders.find? (fun c => c.tid == s.me.tid && c.slot == 15 && c.opened) = none ∧ s.leftFor 5 = true)
    ∧ (s.translate s.env .store none 0x8000 = .ok ⟨.near 0x8000, some 0, true⟩
      ∧ s.translate s.env .store none 0x10000000000 = .ok ⟨.far 5 0, some 0, false⟩
      ∧ s.translate s.env .store none 0x20000000000 = .ok ⟨.far 6 0, some 0, false⟩ ∧ routeV (s.route 5) = true)
    ∧ (let b := beaconed [{ chan3 with flags := List.replicate 4 (0, 0) }]
      ∃ c, b.fab.senders.find? (fun c => c.tid == b.me.tid && c.slot == 0 && c.opened) = some c ∧ 4 ≤ c.flags.length)
    ∧ ((0x10000000008 : Word).toNat % 16 ≠ 0)
    ∧ (let b := beaconed [{ chan3 with closing := some 5 }]
      b.fab.senders.find? (fun c => c.tid == b.me.tid && c.slot == 0 && c.opened) = some { chan3 with closing := some 5 })
    ∧ s.translate s.env .store none 0x30000000000 = .error ⟨7, 1⟩
    ∧ (pod.translate pod.env .store none 0x20000000000 = .ok ⟨.far 6 0, some 0, false⟩ ∧ routeV (pod.route 6) = false)
    ∧ (let b := { s with me := { s.me with win := [{ entryOf (.vst ⟨.int32, false⟩ 0 true 4 1 0) with held := [⟨false, 0, 0, 0, [], [(5, ⟨0, 5, 0xFF⟩)], [], false, []⟩] }] } }
      b.leftFor 5 = false) := by
  refine ⟨?_, ⟨?_, ?_⟩, ⟨?_, ?_⟩, ⟨?_, ?_, ?_⟩, noneFree_freeChan _ _ (fun _ => mem_resting _), ⟨?_, ?_⟩, ⟨?_, ?_, ?_⟩, ⟨?_, ?_, ?_, ?_⟩, ⟨{ chan3 with flags := List.replicate 4 (0, 0) }, ?_, ?_⟩, ?_, ?_, of_badIs ?_, ⟨of_okIs ?_, ?_⟩, ?_⟩
  all_goals first | decide +kernel | rfl

/-- ReductionsAndRoutes: an element at the end of an enabled window, one without a window, a poisoned one; windows that are formed, misaligned,
overlap or have no type; table indices below, at and above 0x1000. -/
def windowed : State :=
  { base with fab := { base.fab with windows := base.fab.windows.set 2 ⟨0x8000, 0x1000, .i32, true⟩ } }
theorem witness_ReductionsAndRoutes :
    (windowed.checkAccess .atomic 0x8FFC 4 = .ok ⟨.near 0x8FFC, some 0, true⟩ ∧ windowed.spot 0x8FFC = .hbm ∧ windowed.windowFor 0x8FFC .i32 = true
      ∧ windowed.windowFor 0x9000 .i32 = false ∧ windowed.windowFor 0x8FFC .n32 = false ∧ windowed.mem.poisonAt 0x8FFC 4 = none
      ∧ windowed.mem.wf = true ∧ (windowed.mem.setPoison [0x11FF]).poisonAt 0x8FFC 4 ≠ none)
    ∧ (windowed.checkAccess .atomic 0x30000000000 4 = .error ⟨7, 1⟩
      ∧ windowed.checkAccess .atomic 0x000FFF1000000000 4 = .ok ⟨.near (coreSram 0), some 0, false⟩
      ∧ pod.checkAccess .atomic 0x10000000000 4 = .ok ⟨.far 5 0, some 0, false⟩)
    ∧ (windowed.me.priv = .sup ∧ windowed.fab.inbox = [] ∧ windowed.allHbm 0x10000 0x1000 = true ∧ rtyOf 4 = some .f32 ∧ rtyOf 7 = none)
    ∧ ((2, (⟨0x8000, 0x1000, .i32, true⟩ : RWindow)) ∈ ((List.range 16).zip windowed.fab.windows.toList).filter (fun p => p.1 != (3 : BitVec 4).toNat && p.2.en))
    ∧ (0x8800 : Word).toNat % 4096 ≠ 0 ∧ job.me.priv = .job ∧ TrapsHandled job := by
  refine ⟨⟨?_, ?_, ?_, ?_, ?_, ?_, ?_, ?_⟩, ⟨of_badIs ?_, of_okIs ?_, of_okIs ?_⟩, ⟨?_, ?_, ?_, ?_, ?_⟩, ?_, ?_, ?_, job_handled⟩ <;> (first | decide +kernel | rfl)

/-- A thread whose shadows describe a copy of 128 bytes from 0x8000 to 0x9000. -/
def copier (len rows flag : Word) : State := { base with me := { base.me with ce := #v[0x8000, 0x9000, len, 0, rows, 0, flag, 7] } }
def copy0 : Copy :=
  ⟨0, 0, 0, 0x100000, .sup, 0, 0x8583B0, 0x8000, 0x9000, 2, 0, 0, 1, false, 0, 0, 0, 0, 0, [], true, [], [], none, [], none⟩
def withCopies (l : List Copy) : State := withClusterBy base 0 (fun c => { c with copies := l })
theorem copier_rows : ((copier 128 1 0).me.ce[4]).toNat = 1 := by decide +kernel
theorem copier_row {r : Nat} (h : r < ((copier 128 1 0).me.ce[4]).toNat) : r = 0 := by rw [copier_rows] at h; omega
theorem copier_good : ∀ n, ¬ CopyBad (copier 128 1 0) n := by
  intro n
  match n with
  | 0 => exact id
  | 1 => exact (by decide : ¬ ((128 : Word).toNat = 0 ∨ 16777216 < (128 : Word).toNat))
  | 2 => exact (by decide : ¬ ((1 : Word).toNat = 0 ∨ 65536 < (1 : Word).toNat))
  | 3 => exact fun h => h.elim (absurd · (by decide)) (fun k => absurd rfl k.1)
  | 4 =>
    intro ⟨r, hr, h⟩
    obtain rfl := copier_row hr
    clear hr
    exact h.elim (fun k => k.elim (absurd · (by decide +kernel)) (absurd · (by decide +kernel)))
      (fun k => k.2.elim (absurd · (by decide +kernel)) (absurd · (by decide +kernel)))
  | 5 =>
    intro ⟨_, _, r, q, hr, hq, h⟩
    obtain rfl := copier_row hr
    obtain rfl := copier_row hq
    clear hr hq
    exact absurd h (by decide +kernel)
  | 6 => exact fun h => absurd h.1 (by decide +kernel)
  | 7 => exact id
  | 8 => exact id
  | 9 =>
    intro ⟨r, hr, h⟩
    obtain rfl := copier_row hr
    clear hr
    exact h.elim (fun k => absurd k.1 (by decide +kernel)) (fun k => absurd k.2.1 (by decide +kernel))
  | n + 10 => exact id

/-- CopyReads: a copy that is queued, one of length 0, a full queue. -/
theorem witness_CopyReads :
    (∀ n, ¬ CopyBad (copier 128 1 0) n) ∧ ((copier 128 1 0).cluster 0).copies.length < 64
    ∧ (CopyBad (copier 0 1 0) 1 ∧ ∀ m, m < 1 → ¬ CopyBad (copier 0 1 0) m)
    ∧ 64 ≤ ((withCopies (List.replicate 64 copy0)).cluster 0).copies.length := by
  refine ⟨copier_good, by decide +kernel, ⟨.inl (by decide +kernel), fun m hm => ?_⟩, by decide +kernel⟩
  obtain rfl : m = 0 := by omega
  exact id

/-- CopyEngine: a copy not started, a running one whose lines have not landed and have, one with a bad source and one that has failed, one that waits
for its turn, a paused engine; a gang's: data fetched and not, and a member that runs, is parked, has left, has retired, or still has an instruction that
uses the group it armed. -/
def gangCopy : Copy := { copy0 with gang := true, greg := 9, members := [0], data := some (List.replicate 32 (5, false)) }
def flagged (n : Nat) : Copy := { copy0 with id := n, flag := 0x000FFF1000000000 }
theorem witness_CopyEngine :
    let s := withCopies [copy0]
    (((withCopies [{ copy0 with running := false }]).cluster 0).copies = [] ++ { copy0 with running := false } :: []
      ∧ ((withCopies [{ copy0 with running := false }]).cluster 0).pause = false)
    ∧ (s.copyOf 0 0 = some copy0 ∧ copy0.flag = 0 ∧ copy0.running = true ∧ copy0.lines = [0x120] ∧ copy0.members = [] ∧ copy0.failed = none
      ∧ s.copyFault 0 copy0 = none ∧ copy0.gang = false)
    ∧ (let q := withCopies [flagged 0, flagged 1]
      q.copyOf 0 1 = some (flagged 1) ∧ (flagged 1).flag ≠ 0
      ∧ (flagged 0) ∈ (q.cluster 0).copies.takeWhile (fun x => x.id != (flagged 1).id) ∧ (flagged 0).tid = (flagged 1).tid ∧ (flagged 0).flag ≠ 0)
    ∧ (∀ l ∈ copy0.lines, l ∈ ({ copy0 with landed := [0x120] }).landed)
    ∧ ((withClusterBy s 0 (fun c => { c with pause := true })).cluster 0).pause = true
    ∧ s.copyFault 0 { copy0 with src := 0x30000000000 } = some ⟨7, 0x30000000000⟩
    ∧ (let c := { copy0 with src := 0x10000000000, remote := [⟨3, 5, 0, 2, 0, .none⟩] }
      let far := withClusterBy pod 0 (fun k => { k with copies := [c], pause := true })
      (far.cluster 0).pause = true ∧ far.copyOf 0 0 = some c ∧ far.farSources c (c.sourcesOf 0x120) = [(5, 0), (5, 1)] ∧ c.asked (5, 0) = true ∧ c.asked (5, 1) = true
      ∧ ({ c with remote := [] }).asked (5, 0) = false)
    ∧ ((withCopies [{ copy0 with failed := some 5 }]).copyOf 0 0 = some { copy0 with failed := some 5 })
    ∧ ((s.cluster 0).pause = false ∧ copy0.bytesOf 0x120 = [(0, 0x8000, 0x9000), (0, 0x8001, 0x9001)]
      ∧ s.copySrc copy0 0 0x8000 = .byte 0 false ∧ s.copySrc copy0 1 0x8001 = .byte 0 false
      ∧ s.engineXlat copy0.env .store 0x9000 = .ok ⟨.near 0x9000, some 0, true⟩ ∧ s.engineXlat copy0.env .store 0x9001 = .ok ⟨.near 0x9001, some 0, true⟩)
    ∧ (let g := withCopies [gangCopy]
      gangCopy.running = true ∧ 0 ∈ gangCopy.members ∧ gangCopy.data = some (List.replicate 32 (5, false)) ∧ g.thread 0 = some g.me
      ∧ g.me.crew = gangCopy.crew ∧ g.me.status = .running ∧ gangCopy.failed = none
      ∧ g.gangBytes { gangCopy with data := none, len := 32 } = some (List.replicate 32 (0, false)) ∧ g.thread 9 = none
      ∧ ({ g.me with status := .retired }).status = .retired ∧ ({ g.me with crew := 4 }).crew ≠ gangCopy.crew
      ∧ (({ g.me with status := .parked }).status ≠ .running ∧ ({ g.me with status := .parked }).status ≠ .waiting))
    ∧ (let armed := entryOf (.vgamWr 9 1)
      let r : State := { vecs with me := { vecs.me with win := [armed] } }
      let b : State := { vecs with me := { vecs.me with win := [entryOf (.vst ⟨.int32, false⟩ 0 true 9 1 0), armed] } }
      r.gangReady true gangCopy 1 = true ∧ b.gangReady true gangCopy 1 = false ∧ r.me.armed true 9 0 = some (0, armed) ∧ base.me.armed true 9 0 = none) := by
  and_intros <;> (first | decide +kernel | rfl)

/-- WeltUnit: blocks of both kinds that are accepted, one with a reserved bit, a full queue; headers at 0x8000 and 0x8020, row pointers all 0;
a block whose rows are done, and one whose header cannot be read. -/
def weltBlock (op row0 rows ahdr bhdr : Nat) : BitVec 512 :=
  launchBlock [op + 2 ^ 5 + row0 * 2 ^ 32, rows, ahdr, bhdr, 0xB000, 0xC000, 0xD000, 0x000FFF1000000000]
def weltOf (b : BitVec 512) : WeltBlock := ⟨0, 0, 0x100000, .sup, 0, b, false, 0, 0, 0, []⟩
def headers : State := put base 0x8000 (leBytes 32 (0xA000 + 0xA100 * 2 ^ 64 + 0xA200 * 2 ^ 128) ++ leBytes 32 (0xA000 + 2 * 2 ^ 128))
theorem witness_WeltUnit :
    let b := weltBlock 0 0 1 0x8000 0x8020
    let w := weltOf b
    let run := { w with started := true, headA := BitVec.ofNat 256 (0xA000 + 0xA100 * 2 ^ 64 + 0xA200 * 2 ^ 128), headB := BitVec.ofNat 256 0xA000 }
    let q (w : WeltBlock) : State := withClusterBy headers 0 (fun c => { c with welts := [w] })
    ((∃ s1, BlockGives (put base 0x8000 (leBytes 64 b.toNat)) 0x8000 b s1) ∧ WeltFieldsOk b ∧ WeltFieldsOk (weltBlock 1 0 1 0x8020 0) ∧ ¬ WeltFieldsOk (weltBlock 8 0 1 0 0)
      ∧ (b.extractLsb' 448 64).toNat % 16 = 0 ∧ 0x000FFF0000000000 ≤ (b.extractLsb' 448 64).toNat
      ∧ base.engineXlat ⟨0, 0xFF, 0x100000, .sup⟩ .store 0x000FFF1000000000 = .ok ⟨.near (coreSram 0), some 0, false⟩ ∧ isScratch (coreSram 0) = true)
    ∧ ((withClusterBy base 0 (fun c => { c with welts := List.replicate 16 w })).cluster 0).welts.length = 16
    ∧ base.checkAccess .load 0x8020 64 = .error ⟨6, 0⟩
    ∧ (base.cluster 0).welts = []
    ∧ (WeltHead (q w) 0 w ∧ EngineReads (q w) 1 w.env 0x8000 32 (0xA000 + 0xA100 * 2 ^ 64 + 0xA200 * 2 ^ 128)
      ∧ EngineReads (q w) 1 w.env 0x8020 32 (0xA000 + 2 * 2 ^ 128) ∧ WeltHeadOk false (BitVec.ofNat 256 (0xA000 + 0xA100 * 2 ^ 64 + 0xA200 * 2 ^ 128))
      ∧ WeltHeadOk true (BitVec.ofNat 256 (0xA000 + 2 * 2 ^ 128)))
    ∧ (WeltHead (q run) 0 run ∧ run.started = true ∧ run.rowsDone < 1 ∧ ((q run).weltRow run).stop = none ∧ (q run).mem.wf = true
      ∧ EngineReads (q run) 1 run.env 0xA000 4 0 ∧ EngineReads (q run) 1 run.env 0xA004 4 0
      ∧ (q run).engineXlat run.env .store 0xD000 1 = .ok ⟨.near 0xD000, some 0, true⟩
      ∧ (q run).engineXlat run.env .store 0xD003 1 = .ok ⟨.near 0xD003, some 0, true⟩)
    ∧ (let w' := weltOf (weltBlock 0 0 1 0x30000000000 0)
      base.weltStart w' = .error (.stop ⟨7, 0x30000000000⟩))
    ∧ (let r' := { run with headA := BitVec.ofNat 256 0x30000000000 }
      (base.weltRow r').stop = some (.stop ⟨7, 0x30000000000⟩)) := by
  have gives : ∃ s1, BlockGives (put base 0x8000 (leBytes 64 (weltBlock 0 0 1 0x8000 0x8020).toNat)) 0x8000 (weltBlock 0 0 1 0x8000 0x8020) s1 :=
    ⟨_, ⟨.near 0x8000, some 0, true⟩, of_okIs (by decide +kernel), .inl ⟨0x8000, rfl, by decide +kernel, by decide +kernel, rfl, by decide +kernel⟩⟩
  refine ⟨⟨gives, ?_, ?_, ?_, ?_, ?_, ?_, ?_⟩, ?_, ?_, ?_,
    ⟨?_, ⟨fun i => 0x8000 + i, fun i hi => ?_, ?_⟩, ⟨fun i => 0x8020 + i, fun i hi => ?_, ?_⟩, ?_, ?_⟩,
    ⟨?_, ?_, ?_, ?_, ?_, ⟨fun i => 0xA000 + i, fun i hi => ?_, ?_⟩, ⟨fun i => 0xA004 + i, fun i hi => ?_, ?_⟩, ?_, ?_⟩, ?_, ?_⟩
  all_goals first
    | first | decide +kernel | exact of_okIs (by decide +kernel) | exact of_badIs (by decide +kernel) | rfl
    | (unfold WeltFieldsOk; decide +kernel)
    | (unfold WeltHead; decide +kernel)
    | (unfold WeltHeadOk; decide +kernel)
    | skip
  all_goals exact ⟨⟨.near _, some 0, true⟩, of_okIs (by revert i; decide +kernel), rfl, by revert i; decide +kernel, by revert i; decide +kernel⟩

/-- CachesAndValues: a home that no cache holds and one that both hold; a fetch that fails, an address that is not on the path; a walk for each kind of
unit; a value on its way; a stream that may read ahead. -/
def cached : State := { base with mem := { base.mem with l1 := [⟨0, 0x100, [], 0⟩], icache := [⟨0, 0x100, [], 0⟩] } }
theorem witness_CachesAndValues :
    (base.thread 0 = some base.me ∧ base.me.holds = true ∧ base.me.status = .running)
    ∧ (base.translate base.me.env .fetch none 0x200000 = .ok ⟨.near 0x200000, some 0, true⟩ ∧ base.onPath 0x200000 512 base.me.pc = true
      ∧ base.onPath 0x8000 512 base.me.pc = false ∧ base.translate base.me.env .load none 0x8000 = .ok ⟨.near 0x8000, some 0, true⟩
      ∧ base.translate base.me.env .load none 0x000FFF1000000000 = .ok ⟨.near (coreSram 0), some 0, false⟩ ∧ base.mem.icache = [] ∧ base.mem.l1 = [])
    ∧ (⟨0, 0x100, [], 0⟩ ∈ cached.mem.l1 ∧ 0x8000 / 128 = 0x100)
    ∧ (((List.range 8).map (fun i => (⟨0, 64 * (i + 8), [], 0⟩ : CacheLine))).filter (fun y => y.core == 0 && y.line % 64 == 0x100 % 64)).length = 8
    ∧ base.translate base.me.env .fetch none 0x30000000000 = .error ⟨4, 0⟩
    ∧ ((0x8000 : Word).toNat < 0x000FFF0000000000 ∧ base.walk base.me.root 0x8000 (layerOf 0) = some (0x3D, 40)
      ∧ base.walk base.me.root 0x30000000000 (layerOf 0) = none)
    ∧ ({ base with me := { base.me with vals := [⟨7, 5⟩] } }).me.vals = [⟨7, 5⟩]
    ∧ (let st := vecs.me.stream 1
      vecs.me.holds = true ∧ vecs.me.carry = none ∧ st.opened = true ∧ st.fib = false ∧ sdDir st.desc = false ∧ st.pos ≤ 0 ∧ 0 < vecs.me.portEnd 1
      ∧ st.ahead = [] ∧ vecs.portAddress 0 0 0 .engine 1 0 = .ok 0x8000
      ∧ vecs.getElem 0 0 0 .engine 0x8000 (vecs.me.portSize 1) = .ok [0, 0, 0, 0]) := by
  and_intros <;> (first | decide +kernel | exact of_okIs (by decide +kernel) | exact of_badIs (by decide +kernel))

def inWindow (l : List Entry) : State := { vecs with me := { vecs.me with win := l } }
def addEntry : Entry := entryOf (.vaddInt ⟨.int32, false⟩ ⟨0, false⟩ 6 4 (.vec 5))
def storeEntry : Entry := entryOf (.vst ⟨.int32, false⟩ 0 true 4 1 0)
def loadEntry : Entry := entryOf (.vld ⟨.int32, false⟩ ⟨0, false⟩ 6 1 0)

/-- GroupPerformed: vaddInt of v4 and v5, vst of v4 to 0x8000, vmv of a stream's elements, and vscadd to 0x8000 with indices 0. -/
def popEntry : Entry := entryOf (.vmv ⟨0, false⟩ 6 29)
def sumEntry : Entry := entryOf (.vscadd ⟨.int32, false⟩ 0 4 1 6 0 0)
theorem witness_GroupPerformed :
    (let s := inWindow [addEntry]
      let s1 : State := { s with me := { s.me with win := s.me.win.set 0 addEntry, rm := addEntry.rm, fz := addEntry.fz } }
      let w := addEntry.work 0 false addEntry.op
      let act (i : Nat) : Act := .reg (if i = 0 then 8 else if i = 1 then 1 else 0)
      (s.me.active = true ∧ s.me.win[0]? = some addEntry ∧ addEntry.op2 = none ∧ wholeOp addEntry.op = false ∧ addEntry.op.returns = none
        ∧ (∀ op ∈ addEntry.ops, s.me.portsOf op = []) ∧ addEntry.op.isAwl = false ∧ s1.farEntry 0 addEntry = false
        ∧ s.allowed 0 addEntry 0 = true ∧ 0 ∈ addEntry.pendingGroups s.me w ∧ addEntry.op.vwrites = some 6 ∧ s.me.port 6 = none)
      ∧ ∀ i ∈ groupElems 8 0, s1.element w i = .ok (act i, Flags.none))
    ∧ (let s := inWindow [storeEntry]
      let s1 : State := { s with me := { s.me with win := s.me.win.set 0 storeEntry, rm := storeEntry.rm, fz := storeEntry.fz } }
      let w := storeEntry.work 0 false storeEntry.op
      let near (i : Nat) : List MaskedByte :=
        ((List.range 4).zip (leBytes 4 (if i = 0 then 3 else if i = 1 then 0xFFFFFFFF else 0))).map (fun p => ⟨0x8000 + 4 * i + p.1, p.2, 0xFF⟩)
      (s.me.active = true ∧ s.me.win[0]? = some storeEntry ∧ wholeOp storeEntry.op = false ∧ (∀ op ∈ storeEntry.ops, s.me.portsOf op = [])
        ∧ s1.farEntry 0 storeEntry = false ∧ s.allowed 0 storeEntry 0 = true ∧ 0 ∈ storeEntry.pendingGroups s.me w ∧ storeEntry.op.returns = none)
      ∧ ∀ i ∈ groupElems 8 0, s1.element w i = .ok (.bytes 0 ((near i).map (fun b => (none, b))), Flags.none))
    ∧ (let s := inWindow [popEntry]
      let e1 : Entry := { popEntry with sel := some (BitVec.allOnes 16384) }
      let s1 : State := { s with me := { s.me with win := s.me.win.set 0 e1, rm := popEntry.rm, fz := popEntry.fz } }
      (s.me.portsOf popEntry.op ≠ [] ∧ popEntry.sel = none ∧ popEntry.op.mask.1 = 0 ∧ wholeOp popEntry.op = false ∧ s.allowed 0 popEntry 0 = true
        ∧ s1.farEntry 0 e1 = false ∧ 0 ∈ popEntry.pendingGroups s.me (popEntry.work 0 false popEntry.op))
      ∧ ∀ i ∈ groupElems 8 0, s1.element (e1.work 0 false e1.op) i = .ok (.reg 0, Flags.none))
    ∧ (let s := inWindow [sumEntry]
      let s1 : State := { s with me := { s.me with win := s.me.win.set 0 sumEntry, rm := sumEntry.rm, fz := sumEntry.fz } }
      let w := sumEntry.work 0 false sumEntry.op
      (sumEntry.op.isAwl = true ∧ wholeOp sumEntry.op = false ∧ s.allowed 0 sumEntry 0 = true ∧ s1.farEntry 0 sumEntry = false
        ∧ sumEntry.parts = [] ∧ s1.gatherReady 0 w 0 = true ∧ sumEntry.pendingGroups s1.me w = [0] ∧ s1.me.olderThan 0 = [])
      ∧ ∀ i ∈ groupElems 8 0, s1.element w i = .ok (.add ⟨0x8000, .int32, if i = 0 then 3 else if i = 1 then 0xFFFFFFFF else 0, 0, false⟩, Flags.none)) := by
  refine ⟨⟨by decide +kernel, fun i hi => of_okIs ?_⟩, ⟨by decide +kernel, fun i hi => of_okIs ?_⟩, ⟨by decide +kernel, fun i hi => of_okIs ?_⟩,
    by decide +kernel, fun i hi => of_okIs ?_⟩ <;> (revert i; decide +kernel)

/-- 04 R94, R95: a replay reads again what a store buffer holds, so a later write of that group waits until the store is released. -/
theorem test_held_store_keeps_its_source :
    let t := (inWindow []).me
    let done : Entry := { storeEntry with map0 := BitVec.allOnes 256 }
    let held : Entry := { done with held := [⟨false, 0, 0, 0, [], [], [], false, []⟩] }
    let next : Work := (entryOf (.vaddInt ⟨.int32, false⟩ ⟨0, false⟩ 4 5 (.vec 5))).work 1 false (.vaddInt ⟨.int32, false⟩ ⟨0, false⟩ 4 5 (.vec 5))
    t.follows held (held.work 0 false held.op) next 0 = true ∧ t.follows done (done.work 0 false done.op) next 0 = false := by
  decide +kernel

/-- A group of a store buffer, an entry that holds it, and an addition to an INT32 at 0x8000. -/
def storedGroup (a : Nat) : StoreGroup := ⟨false, 0, 0, 0, [⟨a, 5, 0xFF⟩, ⟨a + 1, 6, 0x0F⟩], [], [], false, []⟩
def doneEntry (op : EOp) : Entry := { entryOf op with map0 := BitVec.allOnes 256, held := [storedGroup 0x8000] }
def addGroup : StoreGroup := ⟨false, 0, 0, 0, [], [], [⟨0x8000, .int32, 7, 0, false⟩], false, []⟩
def meetEntry (op : EOp) : Entry := { entryOf op with delivered := 0xFF }
def mmaEntry : Entry := { entryOf (.mma 0 0 false 2 1 2 3) with scal := [0x000FFF1000000000, 0x000FFF1000001000, 32], shape := 0x0101, mq := true }
def zeroEntry : Entry := { entryOf (.mzero 1) with mq := true }
def core0 (eng : Bool) (q : List Nat) : CoreRec := ⟨0, false, 0, false, 0, false, q, eng, []⟩
def inEngine (l : List Entry) (eng : Bool) : State :=
  { inWindow l with
    cores := [core0 eng [0]]
    me := { (inWindow l).me with m := (inWindow l).me.m.set 2 ⟨Vector.replicate 32 0, 2, true, 0⟩ } }
def isOk {ε α : Type} (e : Except ε α) : Bool := match e with | .ok _ => true | .error _ => false
theorem of_isOk {ε α : Type} {e : Except ε α} (h : isOk e = true) : ∃ x, e = .ok x := by
  cases e with
  | ok x => exact ⟨x, rfl⟩
  | error _ => simp [isOk] at h

theorem retire_stuck {s : State} {e : Entry} (hw : s.me.win = [e]) (h : s.leaves 0 e = false) : s.retire = s := by
  simp [State.retire, State.retireFrom, hw, h]

/-- LaneEvents, clause by clause: another thread; a word to broadcast, a full queue of the thread and of a lane, a halted core; a group in its lane and
none; a load that is retried; stores and additions released, and no room in st; store groups that may and may not be performed; an addition to a
good and to a poisoned home; lanes that may and may not deliver; rendezvous that have and have not met; the matrix engine. -/
theorem witness_LaneEvents :
    ({ base with others := [Thread.fresh 1] }).others.find? (fun o => o.tid == 1) = some (Thread.fresh 1)
    ∧ (let s := inWindow [loadEntry, { addEntry with queued := false }]
      s.me.active = true ∧ s.me.win = [loadEntry] ++ { addEntry with queued := false } :: [] ∧ s.halted s.me.core = false
      ∧ (∀ l ∈ List.range s.me.lanes, s.me.laneDepth l < 48) ∧ (∀ l ∈ List.range 8, s.laneUsed s.me.core l < 64)
      ∧ 48 ≤ (inWindow (List.replicate 48 addEntry)).me.laneDepth 0
      ∧ 64 ≤ ({ inWindow (List.replicate 40 addEntry) with
        others := [{ (inWindow (List.replicate 40 addEntry)).me with tid := 1, ctx := 1 }] }).laneUsed s.me.core 0
      ∧ ({ s with cores := [{ core0 false [] with halt := true }] }).halted s.me.core = true)
    ∧ (let s := inWindow [addEntry]
      let mine (s : State) (lane : Nat) (p : Nat × Nat) : Bool := match s.me.win[p.1]? with
        | some e => (e.op.isForm && s.formReady p.1 e) || ((s.unit p.1 e || p.2 % s.me.lanes == lane) && s.allowed p.1 e p.2)
        | none => false
      s.pendingWork.find? (mine s 0) = some (0, 0) ∧ s.pendingWork.find? (mine s 7) = none)
    ∧ (let reads (s : State) := s.pendingWork.filter (fun p => (s.me.win[p.1]?).any (fun e => e.ops.any (fun op => op.isLoad || s.me.lanesRead op)))
      reads (inWindow [loadEntry]) = [(0, 0)] ∧ reads (inWindow [addEntry]) = [])
    ∧ ((doneEntry storeEntry.op).complete vecs.me = true ∧ (doneEntry storeEntry.op).held ≠ [] ∧ (doneEntry storeEntry.op).mq = false
      ∧ storeEntry.op.isAwl = false ∧ vecs.me.st.length < 64 ∧ storeEntry.complete vecs.me = false
      ∧ 64 ≤ ({ vecs with me := { vecs.me with st := List.replicate 64 [storedGroup 0x8000] } }).me.st.length
      ∧ (doneEntry (.vscadd ⟨.int32, false⟩ 0 4 1 5 0 0)).complete vecs.me = true ∧ (EOp.vscadd ⟨.int32, false⟩ 0 4 1 5 0 0).isAwl = true)
    ∧ (let s := { vecs with me := { vecs.me with st := [[storedGroup 0x8000, storedGroup 0x9000], [storedGroup 0x8001]] } }
      s.me.st.flatten[1]? = some (storedGroup 0x9000) ∧ s.me.st.flatten[2]? = some (storedGroup 0x8001) ∧ (storedGroup 0x9000).far = []
      ∧ (storedGroup 0x9000).adds = [] ∧ (∃ o ∈ s.me.st.flatten.take 2, ∃ b ∈ o.near, ∃ c ∈ (storedGroup 0x8001).near, c.addr = b.addr)
      ∧ ¬ (∃ o ∈ s.me.st.flatten.take 1, (∃ b ∈ o.near, ∃ c ∈ (storedGroup 0x9000).near, c.addr = b.addr)
        ∨ (o.lane = (storedGroup 0x9000).lane ∧ o.kind = (storedGroup 0x9000).kind ∧ (storedGroup 0x9000).kind.getLsbD 0 = true)) ∧ s.mem.wf = true)
    ∧ (let s := { vecs with me := { vecs.me with gq := [[addGroup]] } }
      s.me.gq = (addGroup :: []) :: [] ∧ addGroup.near = [] ∧ addGroup.far = [] ∧ addGroup.bad = [] ∧ addGroup.adds = ⟨0x8000, .int32, 7, 0, false⟩ :: []
      ∧ s.mem.poisonAt 0x8000 4 = none ∧ marked.mem.poisonAt 0x8000 4 ≠ none)
    ∧ (let red := EOp.vred .add ⟨.int32, false⟩ 0 9 4 1
      let behind := inWindow [storeEntry, entryOf red]
      (inWindow [meetEntry red]).me.meeting = some (0, meetEntry red) ∧ (inWindow [entryOf red]).me.meeting = some (0, entryOf red)
      ∧ (∀ l ∈ List.range vecs.me.lanes, (meetEntry red).delivered.getLsbD l = true) ∧ (entryOf red).delivered.getLsbD 0 = false
      ∧ (red.isMatrix = false ∧ (entryOf red).vl ≠ 0)
      ∧ behind.me.meeting = some (1, entryOf red) ∧ behind.delivers 1 (entryOf red) 7 = true ∧ behind.delivers 1 (entryOf red) 0 = false)
    ∧ (let s := { inWindow [meetEntry (.mzero 1)] with cores := [core0 false []] }
      s.me.meeting = some (0, meetEntry (.mzero 1)) ∧ s.retire = s ∧ (EOp.mzero 1).isMatrix = true
      ∧ ([core0 false []].find? (fun c => c.core == 0)).map (fun c => c.mq) = some []
      ∧ 16 ≤ (core0 false (List.replicate 16 0)).mq.length)
    ∧ (let s := inEngine [mmaEntry] true
      let w := mmaEntry.work 0 false mmaEntry.op
      let sm : State := { s with me := { s.me with rm := mmaEntry.rm, fz := mmaEntry.fz } }
      s.cores.find? (fun c => c.core == 0) = some (core0 true [0]) ∧ (core0 true [0]).mq = s.me.tid :: []
      ∧ (s.me.win.head?.any (fun e => e.mq) && s.me.active) = true ∧ (base.me.win.head?.any (fun e => e.mq) && base.me.active) = false
      ∧ (core0 false [0]).engine = false ∧ s.me.tileTag w = none ∧ tileRows w = 0 :: [] ∧ (∃ s', sm.tileRow w 0 = .ok s')
      ∧ (inEngine [zeroEntry] true).me.win = zeroEntry :: [] ∧ zeroEntry.mq = true ∧ zeroEntry.op = .mzero 1 ∧ (inEngine [zeroEntry] true).me.active = true) := by
  refine ⟨?_, ⟨?_, ?_, ?_, ?_, ?_, ?_, ?_, ?_⟩, ⟨?_, ?_⟩, ⟨?_, ?_⟩, ⟨?_, ?_, ?_, ?_, ?_, ?_, ?_, ?_, ?_⟩, ⟨?_, ?_, ?_, ?_, ?_, ?_, ?_⟩,
    ⟨?_, ?_, ?_, ?_, ?_, ?_, ?_⟩, ⟨?_, ?_, ?_, ?_, ?_, ?_, ?_, ?_⟩, ⟨?_, retire_stuck (e := meetEntry (.mzero 1)) rfl ?_, ?_, ?_, ?_⟩,
    ⟨?_, ?_, ?_, ?_, ?_, ?_, ?_, of_isOk ?_, ?_, ?_, ?_, ?_⟩⟩ <;> decide +kernel

/-- Core 0 is the only one of cluster 0 in service, and its four contexts are held, by the thread in focus at level 5 and three at level 1;
thread 4 is as `u` says, at level 2. -/
def holder (n : Nat) : Thread := { base.me with tid := n, ctx := n, level := 1 }
def crowded (u : Thread) : State :=
  { base with
    me := { base.me with level := 5 }
    others := [holder 1, holder 2, holder 3, { u with tid := 4, level := 2 }]
    cores := (List.range 15).map (fun i => { core0 false [] with core := i + 1, fenced := true }) }
theorem all_of {α : Type} {l : List α} {p q : α → Prop} (h : ∀ x ∈ l, p x → q x) : ∀ x, x ∈ l ∧ p x → q x := fun x hx => h x hx.1 hx.2

/-- KeeperEvents: a thread that is admitted, with room and without; a queued one that ages; a slice that ends; a gang that has waited; a fault. -/
theorem witness_KeeperEvents :
    (let s := crowded (Thread.fresh 4)
      let u := { Thread.fresh 4 with level := 2 }
      let u1 := { u with status := .ready, levelSince := s.time }
      let s1 := { s with others := [holder 1, holder 2, holder 3, u1] }
      s.thread 4 = some u ∧ u.status = .created ∧ s1.noContext u1 = true
      ∧ (s1.me ∈ s1.me :: s1.others ∧ s1.me.holds = true ∧ s1.me.cluster = u.cluster ∧ s.halted s1.me.core = false ∧ u.level < s1.me.level)
      ∧ (∀ o, (o ∈ s1.me :: s1.others ∧ (o.holds = true ∧ u.level < o.level)) → o = s1.me)
      ∧ ({ base with others := [u1] }).noContext u1 = false)
    ∧ (let r := { Thread.fresh 4 with status := .ready, level := 2 }
      (crowded r).thread 4 = some r ∧ r.queued = true ∧ r.level ≠ 0)
    ∧ (let s := { crowded { Thread.fresh 4 with status := .ready } with others := [{ Thread.fresh 4 with status := .ready }] }
      s.me.holds = true ∧ s.rival s.me = true ∧ s.halted s.me.core = false ∧ s.me.crew = 0 ∧ s.me.fault = none
      ∧ (∀ o ∈ s.others, o.tid ≠ s.me.tid ∧ o.holds = false) ∧ base.rival base.me = false)
    ∧ (let r := { Thread.fresh 4 with status := .ready, lid := 9, crew := 6 }
      let g : GangSet := ⟨9, [0], 0⟩
      let s := { withClusterBy (crowded r) 0 (fun c => { c with gangSets := [g] }) with crews := [⟨6, 1, some (0, 8), 1⟩] }
      (s.cluster 0).gangSets = [g] ∧ s.gangLevel 0 g = some 2 ∧ (base.cluster 0).gangSets = []
      ∧ (s.me ∈ s.me :: s.others ∧ s.me.holds = true ∧ s.me.core ∈ g.cores ∧ s.freeCtx s.me.core = none ∧ s.halted s.me.core = false ∧ 2 ≤ s.me.level)
      ∧ (∀ o, (o ∈ s.me :: s.others ∧ (o.holds = true ∧ 2 ≤ o.level)) → o = s.me))
    ∧ (let f : Trap := ⟨8, 1, 0, 0x8000, 0x200000, some 3, 0⟩
      let s := { base with me := { base.me with fault := some f } }
      s.me.fault = some f ∧ s.me.holds = true ∧ s.halted s.me.core = false ∧ TrapsHandled s
      ∧ ({ s with me := { s.me with tvec := 0 } }).me.tip = false) := by
  refine ⟨⟨?_, ?_, ?_, ⟨?_, ?_, ?_, ?_, ?_⟩, all_of ?_, ?_⟩, ⟨?_, ?_, ?_⟩, ⟨?_, ?_, ?_, ?_, ?_, ?_, ?_⟩, ⟨?_, ?_, ?_, ⟨?_, ?_, ?_, ?_, ?_, ?_⟩, all_of ?_⟩,
    ⟨?_, ?_, ?_, ⟨?_, ?_⟩, ?_⟩⟩ <;> decide +kernel

/-- Placement: the head of a queue goes to the core it asks for, to the one it was parked from, and to the one with the fewest contexts; the
thread in focus is placed; lines it owns on core 3 are carried over. -/
def queuedOnly (u : Thread) : State := { base with me := { base.me with status := .retired }, others := [u] }
theorem witness_Placement :
    (let u := { Thread.fresh 4 with status := .ready, root := 0x100000 }
      let s := queuedOnly u
      s.host.quiesced = false ∧ (∀ k ∈ s.clusters, k.gangSets = []) ∧ s.queue 0 = u :: [] ∧ s.isGang u = false ∧ base.queue 0 = []
      ∧ (0 ∈ clusterCores 0 ∧ s.coreOpen 0 = true ∧ s.freeCtx 0 ≠ none ∧ s.grantFor u 0 ≠ 0 ∧ u.fits (s.grantFor u 0) = true)
      ∧ (u.hafn = none ∧ u.lastCore = none ∧ ∀ k ∈ clusterCores 0, k ≠ 0 → (s.holders 0).length = (s.holders k).length ∧ 0 < k)
      ∧ ({ u with hafn := some 15 }).hafn = some (15 % 16) ∧ ({ u with lastCore := some 7 }).lastCore = some 7)
    ∧ (let s : State := { queuedOnly (Thread.fresh 4) with me := { base.me with status := .parked } }
      (s.freeCtx 0 = some 0 ∧ s.me.queued = true ∧ s.me.win = [] ∧ s.me.wait = none ∧ (s.cluster s.me.cluster).copies = [] ∧ s.me.imgBad = false
        ∧ ∀ n ∈ List.range 4, (s.me.stream n).fib = false)
      ∧ ({ s with me := { s.me with imgBad := true } }).freeCtx 0 = some 0)
    ∧ (let s := { base with me := { base.me with carry := some 3 }, mem := { base.mem with owners := [(coreSram 3 / 128, 0)] } }
      s.me.carry = some 3 ∧ 3 ≠ s.me.core ∧ s.me.holds = true ∧ (s.cluster s.me.cluster).copies = [] ∧ (s.cluster s.me.cluster).welts = []
      ∧ s.mem.wf = true ∧ (coreSram 3 / 128, s.me.tid) ∈ s.mem.owners ∧ coreSram 3 ≤ 128 * (coreSram 3 / 128) ∧ 128 * (coreSram 3 / 128) < coreSram 4) := by
  refine ⟨⟨?_, ?_, ?_, ?_, ?_, ⟨?_, ?_, ?_, ?_, ?_⟩, ⟨?_, ?_, ?_⟩, ?_, ?_⟩, ⟨?_, ?_⟩, ?_, ?_, ?_, ?_, ?_, ?_, ?_, ?_, ?_⟩ <;> decide +kernel

/-- PowerEvents: a sensor of a compute die and one of an SRAM die at the ends of their ranges, a sensor that is none, SRAM dies that have all cooled;
the last accumulator; a cluster at its lane count and one whose loop is held back by a hot layer or by the budget; a hot layer; slack intervals that
lower, raise and keep the count; a lantern. -/
def slacked (sum : Int) (count govn : Nat) : State :=
  { base with power := { base.power with slackSum := sum, slackCount := count, govn := govn } }
theorem witness_PowerEvents :
    ((7 < 8 ∧ 63 < 64) ∧ (8 ≤ 11 ∧ 11 < 12 ∧ 15 < 16) ∧ ¬ ((8 < 8 ∧ 16 < 64) ∨ (8 ≤ 8 ∧ 8 < 12 ∧ 16 < 16)))
    ∧ ((base.cluster 95).lbcap ≠ base.laneCount 95 ∧ (base.cluster 95).thermal = 16
      ∧ ((withClusterBy base 95 (fun c => { c with lbcap := 128, thermal := 4 })).cluster 95).lbcap = base.laneCount 95)
    ∧ base.host.active = true
    ∧ (let l := (List.range 64).map (fun k => (8 + k / 16, k % 16, (1599 : BitVec 16)))
      ∀ d ∈ List.range 12, ∀ n ∈ List.range 16, 8 ≤ d → ∃ x ∈ l, x.1 = d ∧ x.2.1 = n ∧ x.2.2.toInt < 1600)
    ∧ (let s := { base with power := { base.power with sensors := [(0, 3, 1681)] } }
      let o := { base with power := { base.power with energy := base.power.energy.set 8 1 } }
      let above (s : State) := s.power.plim * (s.time - s.power.winStart) < 1750 * (s.power.energy[8] - s.power.winEnergy).toNat
      (∃ x ∈ s.power.sensors, x.1 = 5 / 12 ∧ 1680 < x.2.2.toInt) ∧ above o ∧ ¬ above base)
    ∧ (let s := { base with power := { base.power with sensors := [(7, 3, 1888)] } }
      ∃ x ∈ s.power.sensors, x.1 = 7 ∧ 1888 ≤ x.2.2.toInt)
    ∧ (let s := slacked 401 2 16
      s.power.slackCount ≠ 0 ∧ 8 ≤ s.power.dwell ∧ 200 * (s.power.slackCount : Int) < s.power.slackSum ∧ 4 < s.power.govn)
    ∧ (let s := slacked (-401) 2 15
      s.power.slackSum < -200 * (s.power.slackCount : Int) ∧ s.power.govn < 16)
    ∧ ((slacked 400 2 16).power.slackSum ≤ 200 * ((slacked 400 2 16).power.slackCount : Int) ∧ base.power.slackCount = 0)
    ∧ ((0x30 : BitVec 64).getLsbD 4 = true ∧ ∀ j, j < 4 → (0x30 : BitVec 64).getLsbD j = false) := by
  refine ⟨by decide, ⟨?_, ?_, ?_⟩, ?_, ?_, ?_, ⟨(7, 3, 1888), ?_, ?_, ?_⟩, ?_, ?_, ?_, ?_⟩ <;> decide +kernel

/-- ErrorEvents: the first and the last word of each kind of home; a word of HBM that a channel holds, and one of none. -/
theorem witness_ErrorEvents :
    (8 * 0x1FFFFFFFFF < 2 ^ 40) ∧ (base.hbmPlace 0x8000).isSome = true
    ∧ ({ base with chiplets := base.chiplets.set 0 ⟨[5], [], []⟩ }).hbmPlace 0x3FFFFFFFF8 = none ∧ (coreSram 1535 ≤ 8 * (coreSram 1536 / 8 - 1) ∧ 8 * (coreSram 1536 / 8 - 1) < coreSram 1536)
    ∧ (clusterSram 95 ≤ 8 * (clusterSram 96 / 8 - 1) ∧ 8 * (clusterSram 96 / 8 - 1) < clusterSram 96)
    ∧ (chipSram 3 ≤ 8 * (chipSram 4 / 8 - 1) ∧ 8 * (chipSram 4 / 8 - 1) < chipSram 4)
    ∧ (laneSram 1535 7 ≤ 8 * (laneSram 1535 8 / 8 - 1) ∧ 8 * (laneSram 1535 8 / 8 - 1) < laneSram 1535 8)
    ∧ (∀ o ∈ base.others, o.tid ≠ base.me.tid) ∧ base.me.status ≠ .retired := by decide +kernel

/-- Mailbox: the state after reset, with arguments; a command that is busy; recovery; a block that is good, bad, or finds no room; whether a
signature or an image is good is free, so that one of the two clauses about it applies to any. -/
def hosted (f : HostSide → HostSide) (s : State) : State := { s with host := f s.host }
def started (b : BitVec 512) : State :=
  hosted (fun h => { h with args := #v[0x100000, 0x8000, 0, 0, 0] }) (put State.reset 0x8000 (leBytes 64 b.toNat))
theorem witness_Mailbox :
    ((hosted (fun h => { h with busy := true, cmd := 6 }) State.reset).host.busy = true ∧ (6 : BitVec 8) ≠ 2)
    ∧ (MailboxFree State.reset 1 ∧ (8 < (9 : BitVec 8).toNat))
    ∧ (let s := started plainBlock
      MailboxFree s 1 ∧ s.host.fogstat = 0 ∧ s.host.quiesced = false ∧ s.host.active = true ∧ (hosted (fun h => { h with active := false }) s).host.active = false
      ∧ (s.host.args[0].toNat % 65536 = 0 ∧ s.spot s.host.args[0].toNat = .hbm ∧ s.host.args[1].toNat % 64 = 0 ∧ s.spot s.host.args[1].toNat = .hbm
        ∧ s.mem.poisonAt s.host.args[1].toNat 64 = none)
      ∧ BitVec.ofNat 512 (s.mem.number s.host.args[1].toNat 64) = plainBlock
      ∧ (∀ n, ¬ LaunchBad { s with me := { s.me with priv := .sup } } plainBlock n) ∧ LaunchFits s plainBlock
      ∧ s.others.length + (plainBlock.extractLsb' 128 32).toNat < 2 ^ 24)
    ∧ (let s := started bigBlock
      BitVec.ofNat 512 (s.mem.number s.host.args[1].toNat 64) = bigBlock ∧ LaunchBad { s with me := { s.me with priv := .sup } } bigBlock 2)
    ∧ ¬ LaunchFits { started plainBlock with launches := List.replicate 4096 launch0 } plainBlock
    ∧ State.reset.spot 0x30000000000 ≠ .hbm
    ∧ ((0x18000 : Word).toNat % 65536 ≠ 0 ∧ State.reset.host.args[1].toNat % 65536 = 0 ∧ State.reset.me.st = [] ∧ State.reset.me.gq = []
      ∧ State.reset.others = [] ∧ State.reset.me.win = [])
    ∧ ((hosted (fun h => { h with len := 29791 }) State.reset).host.len.toNat < 29792 ∧ (32769 : BitVec 16).toNat > 32768
      ∧ 29792 ≤ (29792 : BitVec 16).toNat ∧ State.reset.host.sigfail.toNat < 2 ∧ 2 ≤ (2 : BitVec 2).toNat)
    ∧ (∀ s : State, (Config.signatureOk 0 [] [] = true ∨ Config.signatureOk 0 [] [] = false)
      ∧ ((Config.imageWhole s.host.staged = true ∧ Config.imageSigned s.host.staged = true
          ∧ (s.host.minBuild ≤ Config.imageBuild s.host.staged ∨ Config.imageBuild s.host.staged < s.host.minBuild))
        ∨ (Config.imageWhole s.host.staged = true ∧ ¬ Config.imageSigned s.host.staged = true) ∨ ¬ Config.imageWhole s.host.staged = true))
    ∧ (State.reset.quiet = true ∧ (∀ u ∈ State.reset.me :: State.reset.others, u.holds = false)
      ∧ (withClusterBy State.reset 0 (fun c => { c with copies := [copy0] })).quiet = false)
    ∧ (cellsAbove 0 State.reset.host.payload = true ∧ cellsAbove 0 State.reset.host.token = true)
    ∧ ((0x30 = 0x10 + 8 * 4) ∧ (0x8000 ≤ 0xFFF8 ∧ 0xFFF8 < 0x10000 ∧ 0xFFF8 % 8 = 0) ∧ (0x28000 ≤ 0x2FFF8 ∧ 0x2FFF8 < 0x30000)) := by
  have free : MailboxFree State.reset 1 := ⟨rfl, .inl rfl⟩
  refine ⟨by decide +kernel, ⟨free, by decide⟩, ⟨⟨by decide +kernel, .inl (by decide +kernel)⟩, by decide +kernel, by decide +kernel, by decide +kernel, by decide +kernel, by decide +kernel, by decide +kernel,
      plain_good _ (by decide +kernel), by unfold LaunchFits; decide +kernel, by decide +kernel⟩,
    ⟨by decide +kernel, (by decide +kernel : (bigBlock.extractLsb' 128 32).toNat = 0 ∨ 1048576 < (bigBlock.extractLsb' 128 32).toNat)⟩,
    full_unfit _ _ _ (Nat.le_refl _), by decide +kernel, by decide +kernel, by decide +kernel,
    fun s => ⟨(Bool.eq_false_or_eq_true _), if hw : Config.imageWhole s.host.staged = true then
        if hs : Config.imageSigned s.host.staged = true then .inl ⟨hw, hs, Nat.lt_or_ge _ _ |>.symm⟩ else .inr (.inl ⟨hw, hs⟩) else .inr (.inr hw)⟩, by decide +kernel, by decide +kernel, by decide⟩

/-- HostAndResets: a debug write before and after the unlock, with a thread that waits on the core; a fence record of a core; a foghorn; the
host's accesses to HBM and to its own window. -/
theorem witness_HostAndResets :
    (State.reset.host.unlocked = false ∧ (hosted (fun h => { h with unlocked := true }) base).host.unlocked = true ∧ 1535 < 1536)
    ∧ ((base.me :: base.others).Pairwise (fun a b => a.tid ≠ b.tid) ∧ (waitsOn base wordWait).me.fault = none ∧ wordWait.done = none)
    ∧ (base.powered = true ∧ ({ base with powered := false }).powered = false ∧ MailboxFree base 8)
    ∧ ({ base with power := { base.power with fences := [(2 ^ 32 + 1535, 16)] } }).power.fences = [(2 ^ 32 + 1535, 16)]
    ∧ (0x10 : BitVec 5) ≠ 0
    ∧ (base.host.fogstat = 0 ∧ base.host.active = true ∧ (hosted (fun h => { h with active := false }) base).host.active = false ∧ base.spot 0x8000 = .hbm ∧ base.spot 0xFFFFFFFFFF = .hbm ∧ base.spot (64 * (2 ^ 43 / 64)) = .host
      ∧ base.spot (64 * 2) ≠ .host ∧ base.spot (2 ^ 40) = .hole ∧ base.spot 0x3FF0000000 = .cap ∧ base.spot 0x3FF00FFFFF = .cap
      ∧ base.spot 0x3FF0100000 = .firmware ∧ base.spot 0x3FFFFFFFFF = .firmware ∧ base.mem.wf = true)
    ∧ ({ base with power := { base.power with fences := [(5 * 2 ^ 32 + 31, 16)] } }).power.fences = [(5 * 2 ^ 32 + 31, 16)] := by
  refine ⟨by decide +kernel, ⟨List.pairwise_singleton _ _, by decide +kernel, rfl⟩, ⟨rfl, rfl, ⟨rfl, .inl rfl⟩⟩, rfl, by decide, by decide +kernel, rfl⟩

/-- FloatArithmetic, FloatCompareAndClass: quiet and signalling NaNs of both formats, and values that are none. -/
theorem witness_FloatArithmetic :
    fpNan 11 52 0x7FF8000000000000 = true ∧ fpSnan 11 52 0xFFF0000000000001 = true ∧ fpNan 8 23 0x7FC00000 = true ∧ fpSnan 8 23 0x7F800001 = true
    ∧ fpNan 11 52 0x7FF0000000000000 = false ∧ fpSnan 8 23 0x7FC00001 = false := by decide +kernel

/-- FabricEvents, clause by clause. -/
def linked (l : Link) : State := { base with fab := { base.fab with links := base.fab.links.set 31 l } }
def liveLink : Link := ⟨0, 0, false, 2, true, 2, [(1, 0, 5, .openReq 1), (0, 0, 5, .openReq 0)], 7, none⟩
def inboxed (p : Packet) : State := { base with fab := { base.fab with inbox := [(5, p)] } }
def asked : RemoteLoad := ⟨3, 5, 0x10, 4, 0, .none⟩
theorem witness_FabricEvents :
    ((linked liveLink).fab.links[31]? = some liveLink ∧ liveLink.state = 2 ∧ (7 : BitVec 16) = liveLink.expect ∧ base.pkgnum.toNat = 0 ∧ (5 ≠ base.pkgnum.toNat)
      ∧ (liveLink.expect - 6).toNat < 32768 ∧ (6 : BitVec 16) ≠ liveLink.expect ∧ 32768 ≤ (liveLink.expect - 8).toNat
      ∧ base.fab.links[0]? = some ⟨0, 0, false, 0, false, 0, [], 0, none⟩)
    ∧ (liveLink.ring = [(1, 0, 5, .openReq 1)] ++ (0, 0, 5, .openReq 0) :: [] ∧ (∀ x ∈ [((1 : BitVec 16), 0, 5, Packet.openReq 1)], x.1 ≠ 0)
      ∧ (∀ x ∈ liveLink.ring, x.1 ≠ 2) ∧ (2 : BitVec 16) = liveLink.nextSeq ∧ (∀ x ∈ liveLink.ring, x.1 ≠ 9) ∧ (9 : BitVec 16) ≠ liveLink.nextSeq)
    ∧ ((base.fab.ports[9]).up = false ∧ 31 < 32 ∧ 9 < 10)
    ∧ (let b : MaskedByte := ⟨0x8000, 5, 0xFF⟩
      (inboxed (.write 1 2 none [b] [0x1000])).fab.inbox[0]? = some (5, .write 1 2 none [b] [0x1000]) ∧ base.fab.markers = []
      ∧ base.mem.wf = true ∧ base.spot 0x8000 = .hbm)
    ∧ ((inboxed (.red 1 2 none 0x8000 .add .i32 7)).fab.inbox[0]? = some (5, .red 1 2 none 0x8000 .add .i32 7)
      ∧ base.windowFor 0x8000 .i32 = false ∧ windowed.windowFor 0x8000 .i32 = true ∧ windowed.spot 0x8000 = .hbm ∧ windowed.mem.poisonAt 0x8000 4 = none)
    ∧ ((inboxed (.loadReq [(3, 0x8000, 4), (4, 2 ^ 40, 8)])).fab.inbox[0]? = some (5, .loadReq [(3, 0x8000, 4), (4, 2 ^ 40, 8)])
      ∧ (∀ i ∈ List.range 4, base.spot (0x8000 + i) = .hbm)
      ∧ base.spot (2 ^ 40) ≠ .hbm)
    ∧ (let s := { inboxed (.loadReply [(3, some [(1, false)]), (4, none)]) with me := { base.me with remote := [asked] } }
      s.fab.inbox[0]? = some (5, .loadReply [(3, some [(1, false)]), (4, none)]) ∧ s.me.remote = [asked] ∧ asked.ser = 3 ∧ asked.pkg = 5 ∧ asked.reply = .none
      ∧ s.others = [] ∧ (∀ c ∈ s.clusters, c.copies = []) ∧ base.me.remote.all (fun r => r.reply != .none) = true) := by
  refine ⟨?_, ?_, ?_, ?_, ?_, ?_, ?_⟩ <;> and_intros <;> decide +kernel

/-- BeaconEvents, clause by clause: each packet in the inbox, the sender or receiver it meets, and the instruction that waits for it. -/
def sending (p : Packet) (a : Ask) (c : Sender) : State :=
  { inboxed p with me := { base.me with ask := a }, fab := { (inboxed p).fab with senders := [c] } }
def receiving (p : Packet) (r : Receiver) : State := { inboxed p with fab := { (inboxed p).fab with receivers := [r] } }
def chanRec : Receiver := ⟨5, 3, 10, [], none⟩
def heldAt : HeldFlag := ⟨0x8000, 1, 12, 100, 0⟩
theorem witness_BeaconEvents :
    ((inboxed (.openReq 3)).fab.inbox[0]? = some (5, .openReq 3) ∧ base.fab.receivers = []
      ∧ 16384 ≤ (List.replicate 16384 { chanRec with chan := 4 }).length)
    ∧ (let c := { chan3 with opened := false }
      let s := sending (.openReply 3 true) (.openChan 3 0) c
      s.fab.inbox[0]? = some (5, .openReply 3 true) ∧ s.fab.senders = [c] ∧ c.chan = 3 ∧ c.pkg = 5 ∧ c.opened = false ∧ c.tid = s.me.tid
      ∧ s.me.ask = .openChan 3 0 ∧ (∀ o ∈ s.others, o.tid ≠ s.me.tid) ∧ s.me.fto ≠ 0)
    ∧ (let s := receiving (.flag 3 0x8000 1 10 100) chanRec
      s.fab.inbox[0]? = some (5, .flag 3 0x8000 1 10 100) ∧ s.fab.receivers = [chanRec] ∧ chanRec.flags = [] ∧ chanRec.close = none
      ∧ (s.fab.receivers.any (fun r => r.src == 5 && r.chan == 3) = true) ∧ (s.fab.receivers.any (fun r => r.src == 5 && r.chan == 4) = false)
      ∧ (chanRec.arr - 10).toNat < 2147483648 ∧ 2147483648 ≤ (chanRec.arr - 12).toNat)
    ∧ (base.spot 0x8000 = .hbm ∧ base.spot 0x800F = .hbm ∧ base.spot (2 ^ 40) ≠ .hbm)
    ∧ (let r := { chanRec with flags := [heldAt] }
      (receiving (.openReq 0) r).fab.receivers = [r] ∧ r.flags = [heldAt] ∧ r.close = none)
    ∧ (let c := { chan3 with flags := [(6, 0), (7, 1)] }
      let s := sending (.flagReport 3 7) .none c
      s.fab.inbox[0]? = some (5, .flagReport 3 7) ∧ s.fab.senders = [c] ∧ c.flags = [(6, 0)] ++ (7, 1) :: [] ∧ (∀ f ∈ [((6 : BitVec 32), 0)], f.1 ≠ 7)
      ∧ c.flags = (6, 0) :: [(7, 1)] ∧ c.tid = s.me.tid ∧ ({ c with pkg := 6 }).pkg ≠ 5)
    ∧ (let s := receiving (.close 3 12 100) chanRec
      s.fab.inbox[0]? = some (5, .close 3 12 100) ∧ 2147483648 ≤ (chanRec.arr - 12).toNat ∧ (chanRec.arr - 10).toNat < 2147483648)
    ∧ (let r := { chanRec with close := some (12, 100, 0) }
      (receiving (.openReq 0) r).fab.receivers = [r] ∧ r.close = some (12, 100, 0) ∧ r.flags = [] ∧ 2147483648 ≤ (r.arr - 12).toNat)
    ∧ (let c := { chan3 with closing := some 4 }
      let s := sending (.closeReply 3 0) (.closeChan 3 4) c
      s.fab.inbox[0]? = some (5, .closeReply 3 0) ∧ c.closing = some 4 ∧ c.pkg = 5 ∧ c.chan = 3 ∧ s.me.ask = .closeChan 3 4 ∧ s.fab.senders = [c])
    ∧ ((inboxed (.marker 1 2 3 100)).fab.inbox[0]? = some (5, .marker 1 2 3 100) ∧ sweepCount base.fab.counts 5 1 2 < 3
      ∧ 3 ≤ sweepCount [⟨5, 1, 2, 3⟩] 5 1 2
      ∧ ({ base with fab := { base.fab with markers := [⟨5, 1, 2, 3, 100, 0⟩] } }).fab.markers[0]? = some ⟨5, 1, 2, 3, 100, 0⟩)
    ∧ (let s := { inboxed (.echo 0 0 3 0) with me := { base.me with ask := .sweeping 0 [5, 6] [], sweep := [(5, 3), (6, 1)] } }
      s.fab.inbox[0]? = some (5, .echo s.me.tid s.me.ep 3 0) ∧ s.me.ask = .sweeping 0 [5, 6] [] ∧ 5 ∈ [5, 6] ∧ (5, 3) ∈ s.me.sweep ∧ (5, 4) ∉ s.me.sweep
      ∧ s.others = []) := by
  refine ⟨⟨?_, ?_, ?_⟩, ?_, ?_, ?_, ?_, ?_, ?_, ?_, ?_, ?_, ?_⟩ <;> first | exact Nat.le_of_eq List.length_replicate.symm | (and_intros <;> decide +kernel)

/-! ### Clauses of the statements above that ask for a state of their own -/

/-- StepRunsDecoded: a core that DBGCTL steps (04 R111). -/
def steppedBase : State := { base with cores := [{ core0 false [] with halt := true, stepping := true }] }
theorem witness_StepRunsDecoded_stepping :
    steppedBase.stepping = true ∧ steppedBase.mayIssue = true ∧ steppedBase.agenda = [] ∧ steppedBase.powered = true ∧ steppedBase.turn = .issue
    ∧ steppedBase.fetchAt steppedBase.me.pc = .ok 0x0040000000000000 ∧ steppedBase.me.issuable (.add 0 0 0) = true := by
  and_intros <;> (first | decide +kernel | rfl)

/-- WaitsBegin: the first and the last word of the capability table, by way of a leaf that allows reading alone (20 R351). -/
def tableLeaf : State := putWord base 0x100008 0x35
theorem witness_WaitsBegin_table :
    ∀ p ∈ [((0x13FF0000000 : Word), 0), (0x13FF00FFFF8, 0xFFFF8)],
      tableLeaf.checkAccess .load p.1 8 = .ok ⟨.cap p.2, some 0, false⟩ ∧ p.1.toNat < 0x000FFF0000000000
      ∧ tableLeaf.mem.poisonAt (tableLeaf.capBase + p.2) 8 = none := by
  intro p hp
  have h : p = ((0x13FF0000000 : Word), 0) ∨ p = (0x13FF00FFFF8, 0xFFFF8) := by simpa using hp
  rcases h with h | h <;> subst h <;> exact ⟨of_okIs (by decide +kernel), by decide +kernel, by decide +kernel⟩

/-- ExecuteClassIssue: an instruction whose VSTART is VL that reads a port, and one that reads none; one whose stream error waits for a row. -/
def pastEnd : State := { vecs with me := { vecs.me with vstart := 8 } }
def rowComing : State := { fibred with me := { fibred.me with win := [entryOf (.fadv 2)] } }
theorem witness_ExecuteClassIssue_vstart :
    (∀ op ∈ [EOp.vmv ⟨0, false⟩ 6 29, .vid ⟨.int32, false⟩ ⟨0, false⟩ 6],
      opensStream op = false ∧ IssueOk pastEnd op ∧ PerformsNothing pastEnd op ∧ pastEnd.me.vl ≠ 0)
    ∧ pastEnd.me.atIssue.popsOf (.vmv ⟨0, false⟩ 6 29) = [1] ∧ pastEnd.me.atIssue.popsOf (.vid ⟨.int32, false⟩ ⟨0, false⟩ 6) = []
    ∧ (∃ op, opensStream op = false ∧ rowComing.rowWait op = true) := by
  refine ⟨fun op hop => ?_, by decide +kernel, by decide +kernel, .sadv 2 1, by decide, by decide +kernel⟩
  have h : opensStream op = false ∧ (pastEnd.me.held = false ∧ pastEnd.me.atIssue.issueFail op (op.xs.map pastEnd.getX) = none)
      ∧ performsNothing op pastEnd.me.vl pastEnd.me.vstart.toNat pastEnd.me.shape = true ∧ pastEnd.me.vl ≠ 0 := by revert op; decide +kernel
  exact h

/-- PairWords: slot 1 alone, after a return to the word that its trap interrupted and to another. -/
def slotLeft (pc : Word) : State := { base with me := { base.me with only1 := true, before := some (pc, 7, 9) } }
theorem witness_PairWords_slotAlone (pc : Word) :
    (slotLeft pc).me.status = .running ∧ (slotLeft pc).me.only1 = true ∧ (slotLeft pc).me.before = some (pc, 7, 9)
    ∧ (slotLeft pc).me.pc = 0x200000 ∧ ∀ s : State, slotValue s ⟨.li, 0, 0, 0x7FFF⟩ = some 0xFFFFFFFFFFFFFFFF :=
  ⟨rfl, rfl, rfl, rfl, fun _ => by unfold slotValue; rfl⟩

/-- BlockReaders: a codebook that stands in the lanes or has still to enter them, with room and without; a thread with a word before it. -/
def bookRead (inLanes : Bool) : State := { vecs with me := { vecs.me with cbk := some (1, inLanes) } }
theorem witness_BlockReaders_lanes :
    (∀ b ∈ [true, false], (bookRead b).me.cbk = some (1, b) ∧ (bookRead b).laneRoom = true ∧ (bookRead b).me.win = [])
    ∧ ({ bookRead false with me := { (bookRead false).me with win := List.replicate 48 addEntry } }).laneRoom = false
    ∧ ({ bookRead false with me := { (bookRead false).me with win := [{ addEntry with queued := false }] } }).me.win.any (fun e => !e.queued) = true
    ∧ described.me.cbk = none := by decide +kernel

/-- v4 and v5 hold FP32 numbers (1.0 and a signalling NaN; 2.0 and -0.0), e1 the scale bytes 255 for block 0 and 127 for block 1. -/
def floats : State :=
  let t := (((vecs.me.vwrite 4 32 0 [(0, 0x3F800000), (1, 0x7F800001)]).vwrite 5 32 0 [(0, 0x40000000), (1, 0x80000000)]).setTag 4 1 2).setTag 5 1 2
  { vecs with me := t.ewrite 1 [(0, 255), (1, 127)] }

/-- ElementValues, floating point: both sources and the destination are read, and scale bytes that are and are not 255. -/
theorem witness_ElementValues_float :
    let f32 : Ty := ⟨.fp32, false⟩
    (∀ op ∈ [EOp.vaddFp f32 ⟨0, false⟩ .dyn 6 4 (.vec 5), .vdiv f32 ⟨0, false⟩ .rtz 6 4 (.vec 5), .vsqrt f32 ⟨0, false⟩ .dyn 6 4,
        .vfma f32 ⟨0, false⟩ .dyn 6 4 (.vec 5), .vminFp f32 ⟨0, false⟩ .dyn 6 4 (.vec 5), .vcmpFp .lt f32 ⟨0, false⟩ 3 4 (.vec 5),
        .vsgn f32 ⟨0, false⟩ 6 4 (.vec 5), .vscl false f32 ⟨0, false⟩ 6 4 1],
      floats.operand (workOf op) 4 32 0 = .ok 0x3F800000 ∧ floats.second (workOf op) .fp32 (.vec 5) 0 = .ok 0x40000000
      ∧ floats.operand (workOf op) 6 32 0 = .ok 0 ∧ floats.operand (workOf op) 4 32 1 = .ok 0x7F800001
      ∧ floats.second (workOf op) .fp32 (.vec 5) 1 = .ok 0x80000000 ∧ floats.operand (workOf op) 4 32 32 = .ok 0)
    ∧ floats.me.eread 1 (0 / 32) = .ok 255 ∧ floats.me.eread 1 (32 / 32) = .ok 127 := by
  refine ⟨fun op hop => ?_, of_okIs (by decide +kernel), of_okIs (by decide +kernel)⟩
  simp only [List.mem_cons, List.not_mem_nil, or_false] at hop
  rcases hop with h | h | h | h | h | h | h | h <;> subst h <;> and_intros <;> exact of_okIs (by decide +kernel)

/-- ElementValues: vcvt to elements inside the part and outside, and of the same width; bitwise operations, moves; vmvx below and at VL. -/
theorem witness_ElementValues_moves :
    (partSource 1 16 32 0 = none ∧ partSource 1 16 32 8 = some 0 ∧ partSource 1 32 16 0 = some 8 ∧ partSource 0 32 32 5 = some 5)
    ∧ (∀ p ∈ [((⟨.fp16, false⟩ : Ty), (⟨.fp32, false⟩ : Ty)), (⟨.fp16, false⟩, ⟨.int32, true⟩), (⟨.int16, false⟩, ⟨.fp32, false⟩), (⟨.int16, false⟩, ⟨.int32, false⟩)],
      vecs.operand (workOf (.vcvt ⟨0, false⟩ .dyn 1 p.1 p.2 6 4)) 4 32 1 = .ok 0xFFFFFFFF)
    ∧ (∀ op ∈ [EOp.vor ⟨0, false⟩ 6 4 (.vec 5), .vxor ⟨0, false⟩ 6 4 (.scalar 1), .vmv ⟨0, false⟩ 6 4, .vmvx ⟨.int32, false⟩ 9 4 1],
      vecs.operand (workOf op) 4 (workOf op).vt.width 1 = .ok 0xFFFFFFFF)
    ∧ ((workOf (.vmvx ⟨.int32, false⟩ 9 4 1)).vl ≤ 8 ∧ 1 < (workOf (.vmvx ⟨.int32, false⟩ 9 4 1)).vl) := by
  refine ⟨by decide, fun p hp => ?_, fun op hop => ?_, by decide +kernel⟩
  · simp only [List.mem_cons, List.not_mem_nil, or_false] at hp
    rcases hp with h | h | h | h <;> subst h <;> exact of_okIs (by decide +kernel)
  · simp only [List.mem_cons, List.not_mem_nil, or_false] at hop
    rcases hop with h | h | h | h <;> subst h <;> exact of_okIs (by decide +kernel)

/-- The product of two FP32 numbers that are 1.0 and 2.0. -/
theorem two_given : Gives 8 23 .rne false (idealMul (numOf vecs.me.codebook .fp32 0x3F800000) (numOf vecs.me.codebook .fp32 0x40000000)) 0x40000000 Flags.none :=
  ⟨0x40000000, 0x40000000, by decide +kernel, by decide +kernel, by decide +kernel, by decide +kernel⟩

/-- ElementValues: a set of vsalsel of which one element is active; its product is 2.0. -/
theorem witness_ElementValues_salsel :
    let op := EOp.vsalsel .n2m4 ⟨.fp32, false⟩ ⟨1, false⟩ 3 4 5
    let s : State := { floats with me := floats.me.kwrite 1 [(0, 1)] }
    ((∀ j ∈ List.range 4, okIs (s.me.kread 1 j) (j == 0) = true) ∧ 0 < (workOf op).vl)
    ∧ (s.operand (workOf op) 4 32 0 = .ok 0x3F800000 ∧ s.operand (workOf op) 5 32 0 = .ok 0x40000000)
    ∧ Gives 8 23 .rne false (idealMul (numOf s.me.codebook .fp32 0x3F800000) (numOf s.me.codebook .fp32 0x40000000)) 0x40000000 Flags.none :=
  ⟨⟨by decide +kernel, by decide +kernel⟩, ⟨of_okIs (by decide +kernel), of_okIs (by decide +kernel)⟩, two_given⟩

/-- WholeOperations, the rendezvous: a maximum, a scan, a permutation, slides and a compress over two elements that are active; what joins two of them. -/
def pairOf : State := { vecs with me := { (vecs.me.setTag 4 1 11) with vl := 2 } }
theorem witness_WholeOperations_rendezvous :
    (∀ op ∈ [EOp.vred .max ⟨.fp32, false⟩ 0 9 4 1, .vscan .add true ⟨.int32, true⟩ ⟨0, false⟩ 6 4 1, .vperm ⟨0, false⟩ 6 4 5, .vslideUp ⟨0, false⟩ 6 4 1,
        .vslideDn ⟨0, false⟩ 6 4 1, .vcompress 0 6 4],
      let e := { entryOf op with delivered := 0xFF, vl := 2 }
      (only pairOf op).me.active = true ∧ (only pairOf op).me.win = [e] ∧ e.queued = true ∧ e.op2 = none ∧ e.map0 ≠ BitVec.allOnes 256 ∧ e.held = []
        ∧ e.mq = false ∧ e.idle = false ∧ (∀ l ∈ List.range (only pairOf op).me.lanes, e.delivered.getLsbD l = true) ∧ (only pairOf op).me.portsOf op = []
        ∧ e.vl ≤ e.vtype.vlmax (only pairOf op).me.lanes)
    ∧ (Joins ⟨.fp32, false⟩ .max .rne false (fun a b => (fpChosen 8 23 false true a b, onlyNv (fpSnan 8 23 a || fpSnan 8 23 b)))
      ∧ Joins ⟨.int32, true⟩ .add .rne false (fun a b => (intJoin .add 32 true a b, Flags.none)))
    ∧ (∀ i ∈ List.range 2, okIs (pairOf.me.kread 0 i) true = true ∧ okIs (pairOf.me.vread 4 32 i) (if i = 0 then 3 else 0xFFFFFFFF) = true
      ∧ okIs (pairOf.me.vread 5 32 i) (if i = 0 then 5 else 2) = true) := by
  refine ⟨by decide +kernel, ⟨fun a b _ _ => by simp [Fmt.isInt, ebOf, fbOf], fun a b _ _ => by simp [Fmt.isInt, Fmt.width]⟩, by decide +kernel⟩

/-- WholeOperations, rows of the matrix engine: of a product, a load and a store of a tile of one row and one column, and all the rows of the load and
of the store. -/
def tileEntry (op : EOp) : Entry := { entryOf op with scal := [0x8000, 64], shape := 0x0101, mq := true }
theorem witness_WholeOperations_rows :
    (∀ e ∈ [mmaEntry, tileEntry (.mld 2 1 2 0), tileEntry (.mst 2 1 2 0)],
      let s := inEngine [e] true
      let w := e.work 0 false e.op
      isOk ({ s with me := { s.me with rm := e.rm, fz := e.fz } }.tileRow w 0) = true ∧ shapeCols w.shape = 1 ∧ tileRows w = [0]
      ∧ s.me.tileTag w = none ∧ s.me.active = true ∧ s.cores.find? (fun c => c.core == 0) = some (core0 true [0]))
    ∧ (∀ e ∈ [tileEntry (.mld 2 1 2 0), tileEntry (.mst 2 1 2 0)],
      let s := inEngine [e] true
      ∃ u, TileRows { s with me := { s.me with rm := e.rm, fz := e.fz } } (e.work 0 false e.op) [0] u) := by
  refine ⟨by decide +kernel, fun e he => ?_⟩
  simp only [List.mem_cons, List.not_mem_nil, or_false] at he
  rcases he with h | h <;> subst h
  · obtain ⟨v, hv⟩ := of_isOk (e := ({ inEngine [tileEntry (.mld 2 1 2 0)] true with me := { (inEngine [tileEntry (.mld 2 1 2 0)] true).me with
      rm := (tileEntry (.mld 2 1 2 0)).rm, fz := (tileEntry (.mld 2 1 2 0)).fz } }).tileRow ((tileEntry (.mld 2 1 2 0)).work 0 false (.mld 2 1 2 0)) 0) (by decide +kernel)
    exact ⟨_, v, hv, rfl⟩
  · obtain ⟨v, hv⟩ := of_isOk (e := ({ inEngine [tileEntry (.mst 2 1 2 0)] true with me := { (inEngine [tileEntry (.mst 2 1 2 0)] true).me with
      rm := (tileEntry (.mst 2 1 2 0)).rm, fz := (tileEntry (.mst 2 1 2 0)).fz } }).tileRow ((tileEntry (.mst 2 1 2 0)).work 0 false (.mst 2 1 2 0)) 0) (by decide +kernel)
    exact ⟨_, v, hv, rfl⟩

/-- WholeOperations, slabs: 33 elements packed into two blocks of the core's scratchpad, and unpacked from there. -/
def packEntry : Entry :=
  { entryOf (.plpack ⟨.fp32, false⟩ 0 true 7 4 1 1 2) with scal := [0x000FFF1000000000, 0], vl := 33, tag0 := 2, mq := true }
def unpackEntry : Entry := { entryOf (.plunpk ⟨0, false⟩ 7 4 1 2) with scal := [0x000FFF1000000000, 0], vl := 33, tag0 := 2, mq := true }
theorem witness_WholeOperations_slabs :
    (∀ e ∈ [packEntry, unpackEntry],
      let s := inEngine [e] true
      s.cores.find? (fun c => c.core == 0) = some (core0 true [0]) ∧ (core0 true [0]).mq = s.me.tid :: [] ∧ s.me.win = e :: [] ∧ e.mq = true
        ∧ s.me.active = true ∧ e.op2 = none ∧ e.held = [] ∧ s.me.tileTag (e.work 0 false e.op) = none ∧ s.me.portsOf e.op = []
        ∧ e.vl ≤ e.vtype.vlmax s.me.lanes ∧ e.vtype.width = 32 ∧ s.mem.wf = true
        ∧ ∀ i ∈ List.range 33, okIs (s.me.kread e.op.mask.1 i) true = true ∧ isOk (s.me.vread 4 32 i) = true ∧ isOk (s.me.eread 1 (i / 32)) = true)
    ∧ ∀ a ∈ [0x000FFF1000000000, 0x000FFF1000000380], SlabFull (inEngine [unpackEntry] true) a 4 := by
  refine ⟨by decide +kernel, fun a ha => ?_⟩
  simp only [List.mem_cons, List.not_mem_nil, or_false] at ha
  rcases ha with h | h <;> subst h <;> exact ⟨by decide +kernel, by decide +kernel⟩

/-- GroupPerformed, vsegmax: the first group of one block, and one that makes its block whole; every element active. -/
def segEntry (map : BitVec 256) : Entry := { entryOf (.vsegmax ⟨.fp32, false⟩ 0 1 4) with vl := 33, map0 := map }
theorem witness_GroupPerformed_segments :
    (∀ p ∈ [((0 : BitVec 256), 0), (7, 3), (0xF, 4)],
      let s := inWindow [segEntry p.1]
      let e := segEntry p.1
      s.me.active = true ∧ s.me.win[0]? = some e ∧ e.op2 = none ∧ s.me.portsOf e.op = [] ∧ s.allowed 0 e p.2 = true
        ∧ p.2 ∈ e.pendingGroups s.me (e.work 0 false e.op)
        ∧ ∀ i ∈ List.range 33, okIs (s.me.kread 0 i) true = true ∧ isOk (s.me.vread 4 32 i) = true)
    ∧ (segEntry 7).openBlocks = [0, 1] ∧ (∀ h ∈ [0, 1, 2], (segEntry 7).map0.getLsbD h = true) := by decide +kernel

/-- GroupPerformed: the one read that is pending is that of a group. -/
theorem witness_GroupPerformed_wake :
    let s := inWindow [loadEntry]
    s.pendingWork.filter (fun p => (s.me.win[p.1]?).any (fun e => e.ops.any (fun op => op.isLoad || s.me.lanesRead op))) = [(0, 0)] := by decide +kernel

/-- LaneEvents: lanes that have still to deliver, with a source that pops and without; a rendezvous that is replayed, behind an entry that is complete and
one that is not. -/
theorem witness_LaneEvents_delivery :
    (∀ op ∈ [EOp.vred .add ⟨.int32, false⟩ 0 9 4 1, .vred .add ⟨.int32, false⟩ 0 9 29 1],
      let s := inWindow [entryOf op]
      let p := s.keepMask 0 (entryOf op)
      let w := p.2.work 0 false p.2.op
      s.me.meeting = some (0, entryOf op) ∧ 0 < s.me.lanes ∧ (entryOf op).delivered.getLsbD 0 = false ∧ s.delivers 0 (entryOf op) 0 = true
        ∧ (∀ q ∈ p.1.lanePops w 0, isOk (p.1.popBytes w.place 0 w.since q.1 q.2) = true))
    ∧ ((inWindow [entryOf (.vred .add ⟨.int32, false⟩ 0 9 29 1)]).lanePops (workOf (.vred .add ⟨.int32, false⟩ 0 9 29 1)) 0 ≠ [])
    ∧ (let again := { entryOf (.vred .add ⟨.int32, false⟩ 0 9 4 1) with replay := true }
      (inWindow [loadEntry, again]).me.meeting = some (1, again) ∧ loadEntry.complete vecs.me = false
      ∧ (inWindow [{ loadEntry with map0 := BitVec.allOnes 256 }, again]).delivers 1 again 0 = true) := by decide +kernel

/-- Drain, ThreadAndLaunchEnd: values that are owed, with an entry of val and without (03 R91). -/
theorem witness_Drain_owed :
    (∀ o ∈ ({ base with me := { base.me with owed := [(5, false)] } }).me.owed, o.2 = false)
    ∧ ¬ ∀ o ∈ ({ base with me := { base.me with owed := [(5, false), (6, true)] } }).me.owed, o.2 = false := by decide +kernel

/-- KeeperEvents: of two threads that a launch has created, the lower index; a holder that a park still awaits, one between the slots of a pair word, a
halted core; a gang that no longer waits. -/
def createdBy (idx : Nat) : Thread := { Thread.fresh (10 - idx) with lid := 9, idx := idx }
theorem witness_KeeperEvents_order :
    (let s : State := { base with others := [createdBy 2, createdBy 1] }
     s.thread 9 = some (createdBy 1) ∧ (createdBy 1).status = .created
     ∧ (∀ o ∈ s.me :: s.others, o.status = .created → o.lid = 9 → o.cluster = (createdBy 1).cluster → (createdBy 1).idx ≤ o.idx)
     ∧ ¬ (∀ o ∈ s.me :: s.others, o.status = .created → o.lid = 9 → o.cluster = (createdBy 2).cluster → (createdBy 2).idx ≤ o.idx))
    ∧ (let s := { crowded { Thread.fresh 4 with status := .ready } with others := [{ Thread.fresh 4 with status := .ready }] }
      let b : State := { s with me := { s.me with only1 := true } }
      s.me.due = .none ∧ s.noneHalted s.me = true ∧ s.me.between = false
      ∧ (b.me.between = true ∧ b.me.holds = true ∧ b.rival b.me = true ∧ b.halted b.me.core = false ∧ b.me.due = .none ∧ b.me.crew = 0)
      ∧ ({ s with me := { s.me with due := .park } }).me.due ≠ .none
      ∧ ({ s with cores := [{ core0 false [] with halt := true }] }).noneHalted s.me = false)
    ∧ (let s := withClusterBy base 0 (fun c => { c with gangSets := [⟨9, [0], 0⟩] })
      (s.cluster 0).gangSets = [⟨9, [0], 0⟩] ∧ s.gangLevel 0 ⟨9, [0], 0⟩ = none) := by decide +kernel

/-- Placement: a thread in its queue that is placed, and one that is not; a poisoned image; a paused cluster, a copy of the thread's own. -/
theorem witness_Placement_queued :
    (let s : State := { base with me := { base.me with status := .parked } }
     s.freeCtx 0 = some 0 ∧ s.me.queued = true ∧ s.me.imgBad = false ∧ s.me.win = [] ∧ s.me.wait = none ∧ (s.cluster s.me.cluster).copies = []
     ∧ (∀ n ∈ List.range 4, (s.me.stream n).fib = false)
     ∧ ({ s with me := { s.me with imgBad := true } }).freeCtx 0 = some 0 ∧ ({ s with me := { s.me with imgBad := true } }).me.queued = true)
    ∧ base.me.queued = false ∧ (crowded (Thread.fresh 4)).freeCtx 0 = none
    ∧ (base.cluster 0).pause = false ∧ ((withClusterBy base 0 (fun c => { c with pause := true })).cluster 0).pause = true
    ∧ (copy0 ∈ ((withCopies [copy0]).cluster 0).copies ∧ copy0.tid = base.me.tid) := by decide +kernel

/-- ErrorEvents: an access to the last register of a thread that is not between the slots of a pair word. -/
theorem witness_ErrorEvents_access :
    base.me.status ≠ .retired ∧ base.me.between = false ∧ (11 < 12) ∧ (31 : XReg).toNat = 31 := by decide +kernel

/-- Mailbox, HostAndResets: a boot that has stopped; chunks that are staged, and none. Whether an image verifies is free (log 32): of the two clauses about
it one applies at each boot. -/
theorem witness_Mailbox_stopped :
    (let s := hosted (fun h => { h with stopped := true }) State.reset
     s.host.stopped = true ∧ s.host.busy = false)
    ∧ State.reset.host.stopped = false ∧ State.reset.host.staged = [] ∧ (hosted (fun h => { h with staged := [(0, [1])] }) State.reset).host.staged ≠ []
    ∧ State.reset.host.fogstat = 0 ∧ State.reset.host.sigfail = 0 ∧ (hosted (fun h => { h with sigfail := 2 }) State.reset).host.sigfail ≠ 0
    ∧ (∀ s : State, BootVerifies s ∨ ¬ BootVerifies s) ∧ BootVerifies (hosted (fun h => { h with fogstat := 1 }) State.reset) := by
  refine ⟨by decide +kernel, by decide +kernel, by decide +kernel, by decide +kernel, by decide +kernel, by decide +kernel, by decide +kernel,
    fun s => Classical.em _, .inl (by decide +kernel)⟩

/-- FabricEvents: a packet that fills a flit, and one item more; a request and its answer for two loads; loads that have and have not been answered. -/
theorem witness_FabricEvents_sizes :
    (packetFits (.loadReq (List.replicate 30 (0, 0x8000, 8))) = true ∧ packetFits (.loadReq (List.replicate 31 (0, 0x8000, 8))) = false)
    ∧ (let items := [(3, 0x8000, 4), (4, 2 ^ 40, 8)]
      let answers := [(3, some (List.replicate 4 ((0 : Byte), false))), (4, none)]
      answers.map (·.1) = items.map (·.1) ∧ (∀ i ∈ List.range 4, base.spot (0x8000 + i) = .hbm) ∧ base.spot (2 ^ 40) ≠ .hbm
      ∧ (∀ a ∈ answers, (a.2.getD []).length ≤ 240))
    ∧ (let l : List RemoteLoad := [asked, { asked with ser := 4, sent := 9 }, { asked with ser := 5, reply := .denied }]
      asked ∈ l ∧ asked.reply = .none ∧ (∀ x ∈ l, x.reply = .none → asked.sent ≤ x.sent)) := by decide +kernel

/-! ## Behaviour: one instruction each, with the values of the spec's worked examples -/

/-- Vector register r of `s` holds elements l of width w from element i on, with a tag. -/
def withV (s : State) (r : VReg) (w i : Nat) (tag : BitVec 4) (l : List Nat) : State :=
  let e := 256 / w
  { s with me := (((List.range l.length).zip l).foldl (fun t p => t.vwrite r w ((i + p.1) / e) [(i + p.1, p.2)]) s.me).setTag r 1 tag }
/-- VTYPE by its request (06 R119), VL, and a grant of n lanes. -/
def shaped (n : Nat) (vt vl : Nat) : State :=
  { base with me := { base.me with vtype := vtypeOf vt, vl := vl, lmask := BitVec.ofNat 8 (2 ^ n - 1) } }
/-- An instruction, and the lanes that then run what it put into the window. -/
def run (i : Instr) (s : State) : State := (after (exec i s)).runWindow
def elems (s : State) (r : VReg) (w i n : Nat) : List Nat := (List.range n).map (fun k => s.me.vget r w (i + k))

/-- 02, the pair word `sub x7, x6, x5 || st.64 x7, [x1, 16]`: memory receives the old x7. -/
theorem test_pair_store_reads_before_write :
    let s := after (step (putWord (withX base [(1, 0x8000), (5, 100), (6, 106), (7, 3)]) 0x200000 0x42398A0036708010))
    s.getX 7 = 6 ∧ s.mem.number 0x8010 8 = 3 ∧ s.me.pc = 0x200008 := by decide +kernel

/-- 03, two counters meet: A's atomic first. -/
theorem test_amo_add :
    let s := after (exec (.amoAdd false 5 9 6 0) (putWord (withX base [(6, 5), (9, 0x201000)]) 0x201000 10))
    s.getX 5 = 10 ∧ s.mem.number 0x201000 8 = 15 := by decide +kernel

/-- 03 R69: -0.75 and -1.5 to a natural integer. -/
theorem test_fcvt_natural :
    let a := after (exec (.fcvtN64F64 .rtz 5 6) (withX base [(6, 0xBFE8000000000000)]))
    let b := after (exec (.fcvtN64F64 .rtz 5 6) (withX base [(6, 0xBFF8000000000000)]))
    a.getX 5 = 0 ∧ a.me.flags = ⟨false, false, false, false, true⟩ ∧ b.getX 5 = 0 ∧ b.me.flags = onlyNv true := by decide +kernel

/-- 10 R226: setshape 32, 32 with LBEFF 256 of 128 lanes. -/
theorem test_setshape_budget :
    (after (exec (.setshapeImm 5 32 32) (withClusterBy base 0 (fun c => { c with lbudget := 256 })))).getX 5 = 0x2010 := by decide +kernel

/-- 18 R313: the walk of VA 0x1234_5678_9ABC. -/
theorem test_walk :
    let s := putWord (putWord (putWord base 0x100090 0x110003) 0x111A28 0x120003) 0x1233C0 0x4000003D
    s.engineXlat s.env .load 0x0000123456789ABC = .ok ⟨.near 0x40009ABC, some 0, true⟩ := of_okIs (by decide +kernel)

/-- 08 R178: saturating and wrapping addition. -/
theorem test_vadd_saturates :
    let s := withV (withV (shaped 1 0x01 2) 4 8 0 9 [200, 100]) 5 8 0 9 [100, 50]
    elems (run (.vaddSat ⟨.int8, true⟩ ⟨0, false⟩ 6 4 (.vec 5)) s) 6 8 0 1 = [255]
    ∧ elems (run (.vaddSat ⟨.int8, false⟩ ⟨0, false⟩ 6 4 (.vec 5)) s) 6 8 1 1 = [0x7F]
    ∧ elems (run (.vaddInt ⟨.int8, false⟩ ⟨0, false⟩ 6 4 (.vec 5)) s) 6 8 1 1 = [0x96] := by decide +kernel

/-- 08, narrowing into part 1: eight of the FP32 elements and their T8 results. -/
theorem test_vcvt_narrows :
    let s := withV (shaped 2 0x01 64) 1 32 0 2 [0x3E99999A, 0x40040000, 0x459C4000, 0xBF800000, 0, 0x38800000, 0x40400000, 0xBEA00000]
    let t := run (.vcvt ⟨0, false⟩ .dyn 1 ⟨.t8, false⟩ ⟨.fp32, false⟩ 4 1) s
    elems t 4 8 8 8 = [0x23, 0x50, 0x7F, 0xC0, 0x00, 0x00, 0x58, 0xA4] ∧ elems t 4 8 0 8 = [0, 0, 0, 0, 0, 0, 0, 0]
      ∧ (t.me.vreg 4).tag = 5 ∧ t.me.flags = ⟨false, false, true, true, true⟩ := by decide +kernel

/-- 08 R188: 2:4 selection. -/
theorem test_vsalsel :
    let s := withV (withV (shaped 1 0x03 4) 4 32 0 2 [0x3F000000, 0xC0400000, 0x40000000, 0x3F800000]) 5 32 0 2 [0x40800000, 0x3F800000, 0xBF800000, 0x40400000]
    ((run (.vsalsel .n2m4 ⟨.fp32, false⟩ ⟨0, false⟩ 2 4 5) s).me.kreg 2).bits.extractLsb' 0 4 = 0b1010 := by decide +kernel

/-- 09, one port read twice: the first multiplication pops positions 0 to 7 once. -/
theorem test_stream_pops_once :
    let d : BitVec 512 := BitVec.ofNat 512 (0x400000 + 5 * 2 ^ 128 + 2 * 2 ^ 160 + 0x220 * 2 ^ 224 + 4 * 2 ^ 256 + 64 * 2 ^ 320)
    let f (s : State) (a : Nat) (l : List Nat) : State := put s a (l.flatMap (leBytes 4))
    let s0 := f (f (shaped 1 0x03 8) 0x400000 [0x3F800000, 0x40000000, 0x40400000, 0x40800000, 0x40A00000]) 0x400040 [0x40C00000, 0x40E00000, 0x41000000]
    let s := { s0 with me := s0.me.setStream 0 (Stream.plainAt d 0 false) }
    let t := run (.vmulFp ⟨.fp32, false⟩ ⟨0, false⟩ .dyn 1 28 (.vec 28)) s
    elems t 1 32 0 8 = [0x3F800000, 0x40800000, 0x41100000, 0x41800000, 0x41C80000, 0x42100000, 0x42440000, 0x42800000]
      ∧ (t.me.stream 0).pos = 8 ∧ (t.me.stream 0).ended = false := by decide +kernel

/-- 07 R162: the order of a sum decides its last bit. -/
theorem test_vred_tree :
    let s := withV { shaped 1 0x03 8 with me := { (shaped 1 0x03 8).me with k := (shaped 1 0x03 8).me.k.set 1 ⟨15, true, 0⟩ } } 4 32 0 2
    (run (.vred .add ⟨.fp32, false⟩ 1 9 4 0) (s [0x4B800000, 0x3F800000, 0x3F800000, 0])).getX 9 = 0x4B800000
    ∧ (run (.vred .add ⟨.fp32, false⟩ 1 9 4 0) (s [0x4B800000, 0x3F800000, 0x3F800000, 0x3F800000])).getX 9 = 0x4B800001 := by decide +kernel

/-- 18, three adds into one word, in ascending order. -/
theorem test_vscadd_order :
    let s := put (withV (withV (withX (shaped 1 0x03 3) [(11, 0x901000)]) 3 32 0 11 [0, 0, 0]) 7 32 0 2 [0x3F800000, 0x3F800000, 0x40000000]) 0x901000
      (leBytes 4 0x4B800000)
    let t := run (.vscadd ⟨.fp32, false⟩ 0 7 11 3 2 1) s
    t.mem.number 0x901000 4 = 0x4B800001 ∧ t.me.flags.nx = true := by decide +kernel

/-- 10, one T8 block: plpack writes the plane words of A. -/
theorem test_plpack :
    let s0 := withV (withX (shaped 1 0x01 32) [(10, 0x000FFF1000000000)]) 2 8 0 5 [0x48, 0xA4, 0x06, 0x58]
    let s := { s0 with me := s0.me.ewrite 1 [(0, 0x80)] }
    let t := run (.plpack ⟨.t8, false⟩ 0 true 7 2 10 1 0) s
    (List.range 8).map (fun p => t.mem.number (coreSram 0 + 128 * p) 4) = [0, 2, 2, 0, 3, 11, 10, 2] ∧ t.mem.number (coreSram 0 + 0x400) 1 = 0x80
      ∧ t.me.flags.nx = true := by decide +kernel

/-- 10, the same block through mma: 4.1875. -/
theorem test_mma :
    let s0 := withX { shaped 1 0x01 32 with me := { (shaped 1 0x01 32).me with rows := 1, cols := 1 } }
      [(10, 0x000FFF1000000000), (11, 0x000FFF1000000480), (12, 32)]
    let s1 := ([(0x080, 2), (0x100, 2), (0x200, 3), (0x280, 11), (0x300, 10), (0x380, 2), (0x400, 0x80), (0x780, 0xFFFFFFFF), (0x880, 0x7F)] :
      List (Nat × Nat)).foldl (fun s p => put s (coreSram 0 + p.1) (leBytes 4 p.2)) s0
    let s := { s1 with me := { s1.me with m := s1.me.m.set 1 ⟨Vector.replicate 32 0, 2, true, 0⟩ } }
    let t := run (.mma 7 7 false 1 10 11 12) s
    tilePart ((t.me.mreg 1).row 0) 0 = 0x40860000 := by decide +kernel

/-- 15, four arrivals and an overrun: steps 2, 4 and 5. -/
theorem test_byarrive_steps :
    let s (low x : Nat) : State := put (withX { base with me := { base.me with crew := 0x21 } } [(6, 0x000FFF1000000000), (7, BitVec.ofNat 64 x)]) (coreSram 0) (leBytes 8 low)
    let t (low : Nat) (n : BitVec 8) : State := after (exec (.byarrive 5 6 n) (s low 0))
    ((t 0x0021002000000004 1).mem.number (coreSram 0) 8 = 0x0021002000010004 ∧ (t 0x0021002000000004 1).getX 5 = 0)
    ∧ ((t 0x0021002000030004 2).mem.number (coreSram 0) 8 = 0x0021003000030004 ∧ (t 0x0021002000030004 2).getX 5 = 2)
    ∧ ((t 0x0021003000030004 1).mem.number (coreSram 0) 8 = 0x0021003100000004 ∧ (t 0x0021003000030004 1).getX 5 = 1) := by decide +kernel

/-- 14, one row of a merge-add: coordinates 1, 5, 7 with values 1.0, 0.5, -2.0, and a count of 3. -/
def mergeState : State :=
  let w (s : State) (a : Nat) (l : List Nat) : State := put s a (l.flatMap (leBytes 4))
  let s := w (w (w (w (w (w base 0xA000 [0, 3]) 0xA100 [1, 4, 7]) 0xA200 [0x3F800000, 0x40000000, 0xC0400000]) 0xA300 [0, 3]) 0xA400 [4, 5, 7]) 0xA500
    [0xC0000000, 0x3F000000, 0x3F800000]
  withClusterBy s 0 (fun c => { c with welts := [{ weltOf (weltBlock 0 0 1 0 0) with
    started := true, headA := BitVec.ofNat 256 (0xA000 + 0xA100 * 2 ^ 64 + 0xA200 * 2 ^ 128), headB := BitVec.ofNat 256 (0xA300 + 0xA400 * 2 ^ 64 + 0xA500 * 2 ^ 128) }] })
theorem test_welt_merge_row :
    let t := after (exec (.weltMergeRow 0) mergeState)
    (List.range 4).map (fun i => t.mem.number (0xB000 + 4 * i) 4) = [1, 5, 7, 0]
      ∧ (List.range 3).map (fun i => t.mem.number (0xC000 + 4 * i) 4) = [0x3F800000, 0x3F000000, 0xC0000000] ∧ t.mem.number 0xD000 4 = 3 := by decide +kernel

/-- 21, a reduction that rounds at each read: 1.0 + 2^24 reads 2^24. -/
theorem test_rred_rounds_at_read :
    let s := put (withX { base with fab := { base.fab with windows := base.fab.windows.set 2 ⟨0x8000, 0x1000, .f32, true⟩ } } [(6, 0x8000), (7, 0x4B800000)])
      0x8000 (leBytes 4 0x3F800000)
    (after (exec (.rred .add .f32 6 7 0) s)).mem.number 0x8000 4 = 0x4B800000 := by decide +kernel

/-- 04 R102: the software trap saves the pc, the cause and the detail. -/
theorem test_software_trap :
    let t := after (exec (.trap 5) job)
    t.me.epc = 0x200000 ∧ t.me.ecause = 0x0E ∧ t.me.einfo = 0x0050000000200000 ∧ t.me.pc = 0x3000 ∧ t.me.priv = .sup ∧ t.me.psup = false := by
  decide +kernel

/-- 20 R361, R362: the records of the ROM, with their SIGNATURE record and the header, make up ROMLEN; NREC counts them, and at
reset the LANTERN record with its own signature. -/
theorem test_rom_length :
    0x40 + (romRecords.map (fun r => recordSize r.2)).sum + 29808 = romLen ∧ romRecords.length + 1 = 9 ∧ State.reset.capCount = 11 := by decide +kernel

/-- A pod of 3 by 2 packages (21 R378): package 1 + n lies at A = n % 3, B = n / 3; the links of the listed directions are up. -/
def podAt (own : Nat) (dirs : List Nat) : State :=
  { State.reset with
    pkgnum := BitVec.ofNat 12 own
    fab := { State.reset.fab with
      podcfg := 0x0012
      routes := (List.range 6).map (fun n => (1 + n, BitVec.ofNat 64 (2 ^ 63 + n % 3 + 16 * (n / 3))))
      links := Vector.ofFn (fun i => { State.reset.fab.links[i] with state := if dirs.contains (i.val / 4) then 2 else 0 }) } }

/-- 21 R379, from A = 1, B = 0 to A = 2, B = 0: link 0 (A+); with no link up in A+, a step out in B+ (link 8); the package at A = 1, B = 1,
which it reaches from B-, sends it on in A+ (link 0), and the one at A = 2, B = 1 back in B- (link 12). -/
theorem test_detour :
    (podAt 2 [0, 1, 2]).linkTo none 3 = some 0 ∧ (podAt 2 [1, 2]).linkTo none 3 = some 8
    ∧ (podAt 5 [0, 1, 3]).linkTo (some 3) 3 = some 0 ∧ (podAt 6 [1, 3]).linkTo (some 1) 3 = some 12 := by decide +kernel

end Sys2Proof.Tests
end

namespace Sys2Proof.Proofs

open Machine Safety Laws

/-! IEEE codes (07 R145): what a code without its sign stands for, and in which order. -/

/-- The magnitude of a code by its exponent field e and fraction r. -/
theorem fpMag_fields (fb e : Nat) {r : Nat} (hr : r < 2 ^ fb) :
    fpMag fb (e * 2 ^ fb + r) = if e = 0 then r else (2 ^ fb + r) * 2 ^ (e - 1) := by
  have hdiv : (e * 2 ^ fb + r) / 2 ^ fb = e := by
    rw [mul_comm, Nat.mul_add_div (Nat.two_pow_pos fb), Nat.div_eq_of_lt hr, Nat.add_zero]
  have hmod : (e * 2 ^ fb + r) % 2 ^ fb = r := by rw [Nat.mul_add_mod', Nat.mod_eq_of_lt hr]
  unfold fpMag
  rw [hdiv, hmod]
  split <;> simp_all

/-- The magnitudes of codes rise with the code. -/
theorem fpMag_strictMono (fb : Nat) : StrictMono (fpMag fb) := by
  refine strictMono_nat_of_lt_succ fun c => ?_
  obtain ⟨e, r, hr, rfl⟩ : ∃ e r, r < 2 ^ fb ∧ c = e * 2 ^ fb + r :=
    ⟨c / 2 ^ fb, c % 2 ^ fb, Nat.mod_lt _ (Nat.two_pow_pos fb), (Nat.div_add_mod' c _).symm⟩
  rcases Nat.lt_or_ge (r + 1) (2 ^ fb) with hlt | hge
  · rw [Nat.add_assoc, fpMag_fields fb e hr, fpMag_fields fb e hlt]
    split
    · omega
    · exact Nat.mul_lt_mul_of_pos_right (by omega) (Nat.two_pow_pos _)
  · have hnext : e * 2 ^ fb + r + 1 = (e + 1) * 2 ^ fb + 0 := by rw [Nat.add_mul]; omega
    rw [hnext, fpMag_fields fb e hr, fpMag_fields fb (e + 1) (Nat.two_pow_pos fb), if_neg e.succ_ne_zero]
    cases e with
    | zero => simpa using hr
    | succ k =>
      rw [if_neg k.succ_ne_zero]
      calc (2 ^ fb + r) * 2 ^ k < 2 * 2 ^ fb * 2 ^ k := Nat.mul_lt_mul_of_pos_right (by omega) (Nat.two_pow_pos k)
        _ = (2 ^ fb + 0) * 2 ^ (k + 1) := by ring

/-- Signed comparison goes through a map that rises from 0. -/
theorem signedNum_lt_iff {g : Nat → Nat} (hg : StrictMono g) (h0 : g 0 = 0) (n1 n2 : Bool) (x y : Nat) :
    signedNum n1 (g x) < signedNum n2 (g y) ↔ signedNum n1 x < signedNum n2 y := by
  have hxy := hg.lt_iff_lt (a := x) (b := y)
  have hyx := hg.lt_iff_lt (a := y) (b := x)
  have hx := hg.lt_iff_lt (a := 0) (b := x)
  have hy := hg.lt_iff_lt (a := 0) (b := y)
  rw [h0] at hx hy
  cases n1 <;> cases n2 <;> simp only [signedNum, Bool.false_eq_true, if_true, if_false] <;> omega

/-- Of two magnitudes the larger one decides: its sign says which signed number is lower. -/
theorem signedNum_lt_larger {x y : Nat} (h : x < y) (n1 n2 : Bool) :
    (signedNum n1 x < signedNum n2 y ↔ n2 = false) ∧ (signedNum n2 y < signedNum n1 x ↔ n2 = true) := by
  cases n1 <;> cases n2 <;> simp [signedNum] <;> omega

/-- The order of finite values is the order of their magnitudes in a common unit. -/
theorem fLess_fin (n1 n2 : Bool) (m1 m2 j1 j2 : Nat) (e : Int) :
    fLess (.fin n1 m1 (e + j1)) (.fin n2 m2 (e + j2)) = decide (signedNum n1 (m1 * 2 ^ j1) < signedNum n2 (m2 * 2 ^ j2)) := by
  have hmin : (if e + (j1 : Int) < e + j2 then e + (j1 : Int) else e + j2) = e + (min j1 j2 : Nat) := by split <;> omega
  have hsub (j : Nat) : (e + (j : Int) - (e + (min j1 j2 : Nat))).toNat = j - min j1 j2 := by omega
  have hscale (m j : Nat) (h : min j1 j2 ≤ j) : m * 2 ^ j = m * 2 ^ (j - min j1 j2) * 2 ^ min j1 j2 := by
    rw [mul_assoc, ← pow_add, Nat.sub_add_cancel h]
  rw [hscale m1 j1 (by omega), hscale m2 j2 (by omega)]
  simp only [fLess, hmin, hsub]
  rw [decide_eq_decide, signedNum_lt_iff (g := (· * 2 ^ min j1 j2)) (strictMono_mul_right_of_pos (Nat.two_pow_pos _)) (Nat.zero_mul _)]
  rfl

section
variable {f : Ieee}

/-- The sign bit put on a code is its sign, and the code signed is its key. -/
theorem fpSign_withSign (neg : Bool) {c : Nat} (hc : c < 2 ^ (f.eb + f.mb)) :
    Safety.fpSign f.eb f.mb (withSign f neg c) = neg := by
  cases neg
  · simp [Safety.fpSign, withSign, Nat.div_eq_of_lt hc]
  · simp [Safety.fpSign, withSign, Ieee.signBit, Nat.add_div_right, Nat.div_eq_of_lt hc]

theorem fpKey_withSign (neg : Bool) {c : Nat} (hc : c < 2 ^ (f.eb + f.mb)) :
    fpKey f.eb f.mb (withSign f neg c) = signedNum neg c := by
  have hmod : withSign f neg c % 2 ^ (f.eb + f.mb) = c := by
    cases neg <;> simp [withSign, Ieee.signBit, Nat.mod_eq_of_lt hc]
  rw [fpKey, fpSign_withSign neg hc, hmod, signedNum]

/-- A code of the width of the format is its sign on its exponent and fraction fields. -/
theorem withSign_fields (n : Nat) (hn : n < 2 ^ (f.eb + f.mb + 1)) :
    withSign f (Safety.fpSign f.eb f.mb n) (n / 2 ^ f.mb % 2 ^ f.eb * 2 ^ f.mb + n % 2 ^ f.mb) = n := by
  have hlow : n / 2 ^ f.mb % 2 ^ f.eb * 2 ^ f.mb + n % 2 ^ f.mb = n % 2 ^ (f.eb + f.mb) := by
    rw [Nat.add_comm f.eb, Nat.pow_add, Nat.mod_mul, Nat.mul_comm (2 ^ f.mb), Nat.add_comm]
  have hhigh : n / 2 ^ (f.eb + f.mb) < 2 := by
    rw [Nat.div_lt_iff_lt_mul (Nat.two_pow_pos _), mul_comm, ← Nat.pow_succ]; exact hn
  have hsplit := Nat.div_add_mod n (2 ^ (f.eb + f.mb))
  rw [hlow, withSign, Safety.fpSign, Ieee.signBit, Nat.mod_eq_of_lt hhigh]
  rcases Nat.le_one_iff_eq_zero_or_eq_one.mp (Nat.lt_succ_iff.mp hhigh) with h | h
  · simpa [h] using hsplit
  · rw [h, Nat.mul_one] at hsplit
    simpa [h, Nat.add_comm] using hsplit

theorem infBits_lt : f.infBits < 2 ^ (f.eb + f.mb) := by
  rw [Ieee.infBits, Nat.pow_add]
  exact Nat.mul_lt_mul_of_pos_right (Nat.sub_lt (Nat.two_pow_pos _) Nat.one_pos) (Nat.two_pow_pos _)

end

/-- The first is a value that is no NaN, the second its code in an IEEE format; there is no subnormal where fz flushes them. Exponents count from the
least subnormal's, and a zero may have any from there on: flushing (03 R67) gives it another than decoding does. -/
inductive ReadsAs (f : Ieee) (fz : Bool) : FVal → Nat → Prop
  | inf (neg : Bool) : ReadsAs f fz (.inf neg) (withSign f neg f.infBits)
  | zero (neg : Bool) (j : Nat) : ReadsAs f fz (.fin neg 0 (f.emin - f.mb + j)) (withSign f neg 0)
  | subnormal (neg : Bool) (m : Nat) : 0 < m → m < 2 ^ f.mb → fz = false →
      ReadsAs f fz (.fin neg m (f.emin - f.mb)) (withSign f neg m)
  | normal (neg : Bool) (m j : Nat) : m < 2 ^ f.mb → (j + 1) * 2 ^ f.mb + m < f.infBits →
      ReadsAs f fz (.fin neg (2 ^ f.mb + m) (f.emin - f.mb + j)) (withSign f neg ((j + 1) * 2 ^ f.mb + m))

namespace ReadsAs
variable {f : Ieee} {fz : Bool}

theorem not_nan {v : FVal} {n : Nat} (h : ReadsAs f fz v n) : v.isNan = false := by cases h <;> rfl
theorem not_snan {v : FVal} {n : Nat} (h : ReadsAs f fz v n) : v.isSnan = false := by cases h <;> rfl

/-- What a finite value is: its code is below that of the infinity, and its magnitude is that of the code. -/
theorem finite {neg : Bool} {m n : Nat} {e : Int} (hf : 2 ^ f.mb ≤ f.infBits) (h : ReadsAs f fz (.fin neg m e) n) :
    ∃ c j : Nat, n = withSign f neg c ∧ c < f.infBits ∧ e = f.emin - f.mb + j ∧ m * 2 ^ j = fpMag f.mb c := by
  cases h with
  | zero _ j => exact ⟨0, j, rfl, (Nat.two_pow_pos _).trans_le hf, rfl, by simp [fpMag]⟩
  | subnormal _ _ _ hlt _ => exact ⟨m, 0, rfl, hlt.trans_le hf, by simp, by simpa using (fpMag_fields f.mb 0 hlt).symm⟩
  | normal _ r j hr hinf => exact ⟨_, j, rfl, hinf, rfl, by rw [fpMag_fields f.mb (j + 1) hr]; simp⟩

/-- The sign of a value is the sign bit of its code. -/
theorem neg_eq {v : FVal} {n : Nat} (hf : 2 ^ f.mb ≤ f.infBits) (h : ReadsAs f fz v n) : v.neg = Safety.fpSign f.eb f.mb n := by
  cases v with
  | nan sig => cases h
  | inf neg => cases h; exact (fpSign_withSign neg infBits_lt).symm
  | fin neg m e =>
    obtain ⟨c, j, rfl, hc, -, -⟩ := h.finite hf
    exact (fpSign_withSign neg (hc.trans infBits_lt)).symm

/-- The order of values is the order of the keys of their codes. -/
theorem fLess_eq {v w : FVal} {n k : Nat} (hf : 2 ^ f.mb ≤ f.infBits) (hv : ReadsAs f fz v n) (hw : ReadsAs f fz w k) :
    fLess v w = decide (fpKey f.eb f.mb n < fpKey f.eb f.mb k) := by
  have hinf : f.infBits < 2 ^ (f.eb + f.mb) := infBits_lt
  have hpos : 0 < f.infBits := (Nat.two_pow_pos f.mb).trans_le hf
  cases v with
  | nan sig => cases hv
  | inf n1 =>
    cases hv
    rw [fpKey_withSign n1 hinf]
    cases w with
    | nan sig => cases hw
    | inf n2 =>
      cases hw
      rw [fpKey_withSign n2 hinf]
      cases n1 <;> cases n2 <;> simp [fLess, signedNum]
      omega
    | fin n2 m2 e2 =>
      obtain ⟨c, j, rfl, hc, -, -⟩ := hw.finite hf
      rw [fpKey_withSign n2 (hc.trans hinf)]
      simp [fLess, signedNum_lt_larger hc n2 n1]
  | fin n1 m1 e1 =>
    obtain ⟨c1, j1, rfl, hc1, rfl, hm1⟩ := hv.finite hf
    rw [fpKey_withSign n1 (hc1.trans hinf)]
    cases w with
    | nan sig => cases hw
    | inf n2 =>
      cases hw
      rw [fpKey_withSign n2 hinf]
      simp [fLess, signedNum_lt_larger hc1 n1 n2]
    | fin n2 m2 e2 =>
      obtain ⟨c2, j2, rfl, hc2, rfl, hm2⟩ := hw.finite hf
      rw [fpKey_withSign n2 (hc2.trans hinf), fLess_fin, hm1, hm2, decide_eq_decide]
      exact signedNum_lt_iff (fpMag_strictMono f.mb) (by simp [fpMag]) n1 n2 c1 c2

end ReadsAs

section
variable {f : Ieee}

/-- An exponent field of two bits or more, as every format has (07 R145): the infinities lie above the subnormals, and the least exponent is not above 0. -/
theorem expMax_ne_zero (heb : 2 ≤ f.eb) : 2 ^ f.eb - 1 ≠ 0 := by
  have h4 : 2 ^ 2 ≤ 2 ^ f.eb := Nat.pow_le_pow_right (by decide) heb
  omega

theorem two_pow_mb_le_infBits (heb : 2 ≤ f.eb) : 2 ^ f.mb ≤ f.infBits :=
  Nat.le_mul_of_pos_left _ (Nat.pos_of_ne_zero (expMax_ne_zero heb))

theorem emin_nonpos (heb : 2 ≤ f.eb) : f.emin ≤ 0 := by
  have h2 : 2 ^ 1 ≤ 2 ^ (f.eb - 1) := Nat.pow_le_pow_right (by decide) (by omega)
  rw [Ieee.emin, Ieee.bias]
  omega

/-- The bit that tells a quiet NaN is the top bit of the fraction. -/
theorem decode_nan (hmb : 1 ≤ f.mb) {n : Nat} (h : fpNan f.eb f.mb n = true) : f.decode n = .nan (fpSnan f.eb f.mb n) := by
  have htop : n % 2 ^ f.mb / 2 ^ (f.mb - 1) = n / 2 ^ (f.mb - 1) % 2 := by
    rw [← Nat.sub_add_cancel hmb, Nat.pow_succ, Nat.add_sub_cancel, Nat.mod_mul_right_div_self]
  have hfields := h
  simp only [fpNan, Bool.and_eq_true, beq_iff_eq, bne_iff_ne] at hfields
  obtain ⟨hexp, hfrac⟩ := hfields
  simp [Ieee.decode, hexp, hfrac, htop, fpSnan, h]

theorem fpNan_eq_false_iff {n : Nat} :
    fpNan f.eb f.mb n = false ↔ (n / 2 ^ f.mb % 2 ^ f.eb = 2 ^ f.eb - 1 → n % 2 ^ f.mb = 0) := by
  by_cases h : n / 2 ^ f.mb % 2 ^ f.eb = 2 ^ f.eb - 1 <;> simp [fpNan, h]

/-- A non-zero value of no more than mb bits in the least unit is subnormal, and one with the hidden bit is not (07 R145). -/
theorem subnormal_of_lt {neg : Bool} {m : Nat} (hpos : 0 < m) (hlt : m < 2 ^ f.mb) :
    (FVal.fin neg m (f.emin - f.mb)).subnormal f = true := by
  have hlog := (Nat.log2_lt hpos.ne').mpr hlt
  simp only [FVal.subnormal, Bool.and_eq_true, bne_iff_ne, decide_eq_true_eq]
  omega

theorem log2_hidden {m : Nat} (hlt : m < 2 ^ f.mb) : Nat.log2 (2 ^ f.mb + m) = f.mb := by
  have hpos := Nat.two_pow_pos f.mb
  rw [Nat.log2_eq_iff (by omega), Nat.pow_succ]
  omega

theorem not_subnormal_hidden {neg : Bool} {m j : Nat} (hlt : m < 2 ^ f.mb) :
    (FVal.fin neg (2 ^ f.mb + m) (f.emin - f.mb + j)).subnormal f = false := by
  simp only [FVal.subnormal, log2_hidden hlt, Bool.and_eq_false_iff, decide_eq_false_iff_not]
  omega

/-- What a code with a given exponent field reads as. -/
theorem decode_inf {n : Nat} (hexp : n / 2 ^ f.mb % 2 ^ f.eb = 2 ^ f.eb - 1) (hfrac : n % 2 ^ f.mb = 0) :
    f.decode n = .inf (Safety.fpSign f.eb f.mb n) := by
  simp only [Ieee.decode, hexp, hfrac, if_true]; rfl

theorem decode_low (heb : 2 ≤ f.eb) {n : Nat} (hexp : n / 2 ^ f.mb % 2 ^ f.eb = 0) :
    f.decode n = .fin (Safety.fpSign f.eb f.mb n) (n % 2 ^ f.mb) (f.emin - f.mb) := by
  simp only [Ieee.decode, hexp, (expMax_ne_zero heb).symm, if_false, if_true]; rfl

theorem decode_normal {n j : Nat} (hexp : n / 2 ^ f.mb % 2 ^ f.eb = j + 1) (hmax : j + 1 ≠ 2 ^ f.eb - 1) :
    f.decode n = .fin (Safety.fpSign f.eb f.mb n) (2 ^ f.mb + n % 2 ^ f.mb) (f.emin - f.mb + j) := by
  have he : ((j + 1 : Nat) : Int) - f.bias - f.mb = f.emin - f.mb + j := by rw [Ieee.emin]; omega
  simp only [Ieee.decode, hexp, hmax, Nat.succ_ne_zero, if_false, he]; rfl

theorem withSign_sub_self (neg : Bool) (c : Nat) : withSign f neg c - c = withSign f neg 0 := by
  cases neg <;> simp [withSign]

/-- The exponent field of a code is 0, the largest, or one between them. -/
theorem exponent_cases (n : Nat) : n / 2 ^ f.mb % 2 ^ f.eb = 0 ∨ n / 2 ^ f.mb % 2 ^ f.eb = 2 ^ f.eb - 1
    ∨ ∃ j, n / 2 ^ f.mb % 2 ^ f.eb = j + 1 ∧ j + 1 < 2 ^ f.eb - 1 := by
  have hexp : n / 2 ^ f.mb % 2 ^ f.eb < 2 ^ f.eb := Nat.mod_lt _ (Nat.two_pow_pos _)
  cases h : n / 2 ^ f.mb % 2 ^ f.eb with
  | zero => exact .inl rfl
  | succ j => exact .inr ((Nat.eq_or_lt_of_le (by omega)).imp_right fun hj => ⟨j, rfl, hj⟩)

section
variable {n : Nat} (fz : Bool) (hn : n < 2 ^ (f.eb + f.mb + 1))
include hn

/-- What the codes of each exponent field read as: where it is 0, FZ makes a zero of a subnormal. -/
theorem readsAs_low (heb : 2 ≤ f.eb) (hlow : n / 2 ^ f.mb % 2 ^ f.eb = 0) :
    ReadsAs f fz ((f.decode n).flush f fz) (fpFlushed f.eb f.mb fz n) := by
  have hcode := withSign_fields n hn
  have hfrac : n % 2 ^ f.mb < 2 ^ f.mb := Nat.mod_lt _ (Nat.two_pow_pos _)
  rw [hlow, Nat.zero_mul, Nat.zero_add] at hcode
  rw [decode_low heb hlow, FVal.flush, fpFlushed, hlow]
  generalize Safety.fpSign f.eb f.mb n = neg at hcode ⊢
  rcases Nat.eq_zero_or_pos (n % 2 ^ f.mb) with h0 | hpos
  · rw [h0] at hcode ⊢
    simpa [hcode, FVal.subnormal] using ReadsAs.zero (f := f) (fz := fz) neg 0
  rw [subnormal_of_lt hpos hfrac]
  cases fz
  · simpa [hcode] using ReadsAs.subnormal (fz := false) neg _ hpos hfrac rfl
  · have hzero : n - n % 2 ^ f.mb = withSign f neg 0 := by rw [← withSign_sub_self _ (n % 2 ^ f.mb), hcode]
    have hunit : (0 : Int) = f.emin - f.mb + (f.mb - f.emin).toNat := by have := emin_nonpos heb; omega
    have hreads := ReadsAs.zero (f := f) (fz := true) neg (f.mb - f.emin).toNat
    rw [← hunit, ← hzero] at hreads
    simpa using hreads

theorem readsAs_inf (heb : 2 ≤ f.eb) (hmax : n / 2 ^ f.mb % 2 ^ f.eb = 2 ^ f.eb - 1) (h0 : n % 2 ^ f.mb = 0) :
    ReadsAs f fz ((f.decode n).flush f fz) (fpFlushed f.eb f.mb fz n) := by
  have hcode := withSign_fields n hn
  have hflush (neg : Bool) : (FVal.inf neg).flush f fz = .inf neg := by simp [FVal.flush, FVal.subnormal]
  rw [hmax, h0, Nat.add_zero] at hcode
  rw [decode_inf hmax h0, hflush, fpFlushed, hmax, if_neg (fun h => expMax_ne_zero heb h.2)]
  generalize Safety.fpSign f.eb f.mb n = neg at hcode ⊢
  exact hcode ▸ ReadsAs.inf neg

theorem readsAs_normal {j : Nat} (hj : n / 2 ^ f.mb % 2 ^ f.eb = j + 1) (hlt : j + 1 < 2 ^ f.eb - 1) :
    ReadsAs f fz ((f.decode n).flush f fz) (fpFlushed f.eb f.mb fz n) := by
  have hcode := withSign_fields n hn
  have hfrac : n % 2 ^ f.mb < 2 ^ f.mb := Nat.mod_lt _ (Nat.two_pow_pos _)
  have hinf : (j + 1) * 2 ^ f.mb + n % 2 ^ f.mb < f.infBits := by
    calc (j + 1) * 2 ^ f.mb + n % 2 ^ f.mb < (j + 2) * 2 ^ f.mb := by rw [Nat.succ_mul (j + 1)]; omega
      _ ≤ f.infBits := Nat.mul_le_mul_right _ hlt
  rw [hj] at hcode
  rw [decode_normal hj hlt.ne, fpFlushed, hj, FVal.flush, not_subnormal_hidden hfrac]
  simpa [hcode] using ReadsAs.normal (fz := fz) (Safety.fpSign f.eb f.mb n) _ j hfrac hinf

/-- A code that is no NaN reads as the code that 03 R67 makes of it. -/
theorem readsAs_flush_decode (heb : 2 ≤ f.eb) (hnan : fpNan f.eb f.mb n = false) :
    ReadsAs f fz ((f.decode n).flush f fz) (fpFlushed f.eb f.mb fz n) := by
  obtain hlow | hmax | ⟨j, hj, hlt⟩ := exponent_cases (f := f) n
  · exact readsAs_low fz hn heb hlow
  · exact readsAs_inf fz hn heb hmax (fpNan_eq_false_iff.mp hnan hmax)
  · exact readsAs_normal fz hn hj hlt

end

/-- Operand flushing leaves a NaN as it is. -/
theorem flush_decode_nan (hmb : 1 ≤ f.mb) (fz : Bool) {n : Nat} (h : fpNan f.eb f.mb n = true) :
    (f.decode n).flush f fz = .nan (fpSnan f.eb f.mb n) := by
  rw [decode_nan hmb h]; simp [FVal.flush, FVal.subnormal]

theorem isNan_flush_decode (heb : 2 ≤ f.eb) (hmb : 1 ≤ f.mb) (fz : Bool) {n : Nat} (hn : n < 2 ^ (f.eb + f.mb + 1)) :
    ((f.decode n).flush f fz).isNan = fpNan f.eb f.mb n := by
  cases h : fpNan f.eb f.mb n
  · exact (readsAs_flush_decode fz hn heb h).not_nan
  · rw [flush_decode_nan hmb fz h]; rfl

theorem isSnan_flush_decode (heb : 2 ≤ f.eb) (hmb : 1 ≤ f.mb) (fz : Bool) {n : Nat} (hn : n < 2 ^ (f.eb + f.mb + 1)) :
    ((f.decode n).flush f fz).isSnan = fpSnan f.eb f.mb n := by
  cases h : fpNan f.eb f.mb n
  · rw [fpSnan, h]
    exact (readsAs_flush_decode fz hn heb h).not_snan
  · rw [flush_decode_nan hmb fz h]; rfl

/-- Rounding gives a value that a code stands for back as that code, with no flag (03 R66, R67). -/
theorem round_readsAs (hf : 2 ^ f.mb ≤ f.infBits) {mode : Mode} {fz neg : Bool} {m n : Nat} {e : Int} (h : ReadsAs f fz (.fin neg m e) n) :
    f.round mode fz neg m e = noFlags n := by
  cases h with
  | zero _ j => simp [Ieee.round]
  | subnormal _ _ hpos hlt hfz =>
    have hlog := (Nat.log2_lt hpos.ne').mpr hlt
    have htop : (Nat.log2 m : Int) + (f.emin - f.mb) < f.emin := by omega
    have hmag : ¬ f.infBits ≤ m := by omega
    simp [Ieee.round, hpos.ne', htop, roundUnits, hmag, hfz, noFlags, Flags.none]
  | normal _ r j hr hinf =>
    have htop : ¬ ((f.mb : Int) + (f.emin - f.mb + j) < f.emin) := by omega
    have hunit : (f.mb : Int) + (f.emin - f.mb + j) - f.mb = f.emin - f.mb + j := by omega
    have hmag : j * 2 ^ f.mb + (2 ^ f.mb + r) = (j + 1) * 2 ^ f.mb + r := by rw [Nat.succ_mul]; omega
    have hbelow : ¬ f.infBits ≤ (j + 1) * 2 ^ f.mb + r := by omega
    have hnormal : ¬ ((j + 1) * 2 ^ f.mb + r < 2 ^ f.mb) := by rw [Nat.succ_mul]; omega
    simp [Ieee.round, log2_hidden hr, htop, hunit, roundUnits, hmag, hbelow, hnormal, noFlags, Flags.none]

/-- The class of a value is the class bit of its code (03 R68). -/
theorem fClass_decode (heb : 2 ≤ f.eb) (hmb : 1 ≤ f.mb) (n : Nat) : fClass f (f.decode n) = fpClassBit f.eb f.mb n := by
  have hfrac : n % 2 ^ f.mb < 2 ^ f.mb := Nat.mod_lt _ (Nat.two_pow_pos _)
  obtain hlow | hmax | ⟨j, hj, hlt⟩ := exponent_cases (f := f) n
  · rw [decode_low heb hlow]
    rcases Nat.eq_zero_or_pos (n % 2 ^ f.mb) with h0 | hpos
    · simp [fClass, fpClassBit, hlow, (expMax_ne_zero heb).symm, h0]
    · simp [fClass, fpClassBit, hlow, (expMax_ne_zero heb).symm, hpos.ne', subnormal_of_lt hpos hfrac]
  · by_cases h0 : n % 2 ^ f.mb = 0
    · rw [decode_inf hmax h0]; simp [fClass, fpClassBit, hmax, h0]
    · rw [decode_nan hmb (by simp [fpNan, hmax, h0])]; simp [fClass, fpClassBit, hmax, h0]
  · rw [decode_normal hj hlt.ne]
    simp [fClass, fpClassBit, hj, hlt.ne, not_subnormal_hidden hfrac]

end

/-! What the scalar formats read, choose and write (03 R66 to R68). -/

/-- The floating-point formats of the scalar registers with their exponent and fraction widths (01 R13). -/
inductive ScalarFp : Fmt → Nat → Nat → Prop
  | fp64 : ScalarFp .fp64 11 52
  | fp32 : ScalarFp .fp32 8 23

/-- The operand bits of a scalar FP instruction. -/
def fpBits (s : State) (f : Fmt) (r : XReg) : Nat := (s.getX r).toNat % 2 ^ f.width

theorem fpBits_fp64 (s : State) (r : XReg) : fpBits s .fp64 r = (s.getX r).toNat := Nat.mod_eq_of_lt (s.getX r).isLt
theorem fpBits_fp32 (s : State) (r : XReg) : fpBits s .fp32 r = (s.getX r).toNat % 2 ^ 32 := rfl

/-- `finishFp` writes its result, raises its flags and goes on. -/
theorem finishFp_fpWrote (s : State) (d : XReg) {P : Word → Flags → Prop} (r : Rounded) (h : P (BitVec.ofNat 64 r.bits) r.flags) :
    FpWrote s (finishFp s d r) d P :=
  ⟨_, _, h, finish_answers s _ d _ (fun _ => rfl) rfl⟩

/-- Of two keys, which one is lower, with the sign to tell equal ones apart. -/
theorem decide_lower (x y : Int) (neg : Bool) :
    (decide (x < y) || (!decide (y < x) && neg)) = decide (x < y ∨ (x = y ∧ neg = true)) := by
  rcases lt_trichotomy x y with h | h | h
  · simp [h]
  · simp [h]
  · simp [h, h.ne']

theorem decide_eq_keys (x y : Int) : (!decide (x < y) && !decide (y < x)) = decide (x = y) := by
  rcases lt_trichotomy x y with h | h | h
  · simp [h, h.ne]
  · simp [h]
  · simp [h, h.ne']

section
variable {f : Fmt} {eb fb : Nat} (hf : ScalarFp f eb fb) (s : State) (a b d : XReg)
include hf

theorem ScalarFp.layout : layoutOf f = ⟨eb, fb⟩ := by cases hf <;> rfl
theorem ScalarFp.eb_ge : 2 ≤ eb := by cases hf <;> decide
theorem ScalarFp.fb_ge : 1 ≤ fb := by cases hf <;> decide
theorem ScalarFp.width_le : f.width ≤ 64 := by cases hf <;> decide
theorem ScalarFp.fpQnan_lt : fpQnan eb fb < 2 ^ 64 := by cases hf <;> decide

/-- Rounding to such a format is IEEE rounding; infinities keep their sign, and the NaN is the canonical one (03 R66). -/
theorem ScalarFp.roundFmt_fin (mode : Mode) (fz neg : Bool) (m : Nat) (e : Int) :
    roundFmt f mode fz (.fin neg m e) = (⟨eb, fb⟩ : Ieee).round mode fz neg m e := by cases hf <;> rfl
theorem ScalarFp.roundFmt_inf (mode : Mode) (fz neg : Bool) :
    roundFmt f mode fz (.inf neg) = noFlags (withSign ⟨eb, fb⟩ neg (Ieee.infBits ⟨eb, fb⟩)) := by cases hf <;> rfl
theorem ScalarFp.roundFmt_nan (mode : Mode) (fz sig : Bool) :
    roundFmt f mode fz (.nan sig) = ⟨fpQnan eb fb, onlyNv sig⟩ := by cases hf <;> rfl

/-- A value that a code stands for is written as that code. -/
theorem ScalarFp.roundFmt_readsAs (mode : Mode) {fz : Bool} {v : FVal} {n : Nat} (h : ReadsAs ⟨eb, fb⟩ fz v n) :
    roundFmt f mode fz v = noFlags n := by
  cases v with
  | nan sig => cases h
  | inf neg => cases h; exact hf.roundFmt_inf mode fz neg
  | fin neg m e => exact (hf.roundFmt_fin mode fz neg m e).trans (round_readsAs (two_pow_mb_le_infBits hf.eb_ge) h)

theorem ScalarFp.fpBits_lt : fpBits s f a < 2 ^ (eb + fb + 1) := by
  cases hf <;> exact Nat.mod_lt _ (Nat.two_pow_pos _)

/-- An operand is its decoded and flushed bits. -/
theorem ScalarFp.fx_eq : s.fx f a = (Ieee.decode ⟨eb, fb⟩ (fpBits s f a)).flush ⟨eb, fb⟩ s.me.fz := by
  rw [State.fx, hf.layout, fpBits]

theorem ScalarFp.isNan_fx : (s.fx f a).isNan = fpNan eb fb (fpBits s f a) := by
  rw [hf.fx_eq]; exact isNan_flush_decode hf.eb_ge hf.fb_ge _ (hf.fpBits_lt s a)

theorem ScalarFp.isSnan_fx : (s.fx f a).isSnan = fpSnan eb fb (fpBits s f a) := by
  rw [hf.fx_eq]; exact isSnan_flush_decode hf.eb_ge hf.fb_ge _ (hf.fpBits_lt s a)

variable {a b}

theorem ScalarFp.readsAs_fx (h : fpNan eb fb (fpBits s f a) = false) :
    ReadsAs ⟨eb, fb⟩ s.me.fz (s.fx f a) (fpFlushed eb fb s.me.fz (fpBits s f a)) := by
  rw [hf.fx_eq]; exact readsAs_flush_decode _ (hf.fpBits_lt s a) hf.eb_ge h

/-- The order of two operands that are no NaNs. -/
theorem ScalarFp.fLess_fx (ha : fpNan eb fb (fpBits s f a) = false) (hb : fpNan eb fb (fpBits s f b) = false) :
    fLess (s.fx f a) (s.fx f b)
      = decide (fpKey eb fb (fpFlushed eb fb s.me.fz (fpBits s f a)) < fpKey eb fb (fpFlushed eb fb s.me.fz (fpBits s f b))) :=
  ReadsAs.fLess_eq (f := ⟨eb, fb⟩) (two_pow_mb_le_infBits hf.eb_ge) (hf.readsAs_fx s ha) (hf.readsAs_fx s hb)

theorem ScalarFp.neg_fx (ha : fpNan eb fb (fpBits s f a) = false) :
    (s.fx f a).neg = Safety.fpSign eb fb (fpFlushed eb fb s.me.fz (fpBits s f a)) :=
  ReadsAs.neg_eq (f := ⟨eb, fb⟩) (two_pow_mb_le_infBits hf.eb_ge) (hf.readsAs_fx s ha)

variable (a b)

/-- minimumNumber and maximumNumber of two registers: the bits that are chosen, and NV for a signalling NaN (03 R68). -/
theorem ScalarFp.rounded_fMinMax (big : Bool) :
    rounded f .rne s.me.fz (fMinMax big (s.fx f a) (s.fx f b))
      = ⟨fpChosen eb fb s.me.fz big (fpBits s f a) (fpBits s f b),
        onlyNv (fpSnan eb fb (fpBits s f a) || fpSnan eb fb (fpBits s f b))⟩ := by
  have hround {v : FVal} {n : Nat} (fl : Bool) (h : ReadsAs ⟨eb, fb⟩ s.me.fz v n) :
      rounded f .rne s.me.fz (v, onlyNv fl) = ⟨n, onlyNv fl⟩ := by
    simp [rounded, hf.roundFmt_readsAs _ h, noFlags, Flags.or, Flags.none, onlyNv]
  rw [fMinMax, hf.isSnan_fx, hf.isSnan_fx, hf.isNan_fx, hf.isNan_fx]
  unfold fpChosen
  cases ha : fpNan eb fb (fpBits s f a) <;> cases hb : fpNan eb fb (fpBits s f b)
  case false.false =>
    have hlow : (fLess (s.fx f a) (s.fx f b) || (!fLess (s.fx f b) (s.fx f a) && (s.fx f a).neg))
        = decide (fpKey eb fb (fpFlushed eb fb s.me.fz (fpBits s f a)) < fpKey eb fb (fpFlushed eb fb s.me.fz (fpBits s f b))
          ∨ (fpKey eb fb (fpFlushed eb fb s.me.fz (fpBits s f a)) = fpKey eb fb (fpFlushed eb fb s.me.fz (fpBits s f b))
            ∧ Safety.fpSign eb fb (fpFlushed eb fb s.me.fz (fpBits s f a)) = true)) := by
      rw [hf.fLess_fx s ha hb, hf.fLess_fx s hb ha, hf.neg_fx s ha, decide_lower]
    simp only [hlow, Bool.false_eq_true, Bool.and_self, if_false]
    split
    · exact hround _ (hf.readsAs_fx s ha)
    · exact hround _ (hf.readsAs_fx s hb)
  case false.true => exact hround _ (hf.readsAs_fx s ha)
  case true.false => exact hround _ (hf.readsAs_fx s hb)
  case true.true =>
    simp [rounded, hf.roundFmt_nan, Flags.or, Flags.none, onlyNv]

/-- A chosen code fits the register. -/
theorem ScalarFp.fpChosen_lt (fz big : Bool) : fpChosen eb fb fz big (fpBits s f a) (fpBits s f b) < 2 ^ 64 := by
  have hbits (r : XReg) : fpFlushed eb fb fz (fpBits s f r) < 2 ^ 64 := by
    have hlt : fpBits s f r < 2 ^ 64 :=
      (Nat.mod_lt _ (Nat.two_pow_pos _)).trans_le (Nat.pow_le_pow_right (by decide) hf.width_le)
    unfold fpFlushed
    split <;> omega
  unfold fpChosen
  have ha := hbits a
  have hb := hbits b
  have hq := hf.fpQnan_lt
  dsimp only
  split_ifs <;> assumption

/-- fmin and fmax write the chosen code. -/
theorem ScalarFp.fpMinMax_fpWrote (big : Bool) : FpWrote s (fpMinMax f big d a b s) d (fun w fl =>
    fl = onlyNv (fpSnan eb fb (fpBits s f a) || fpSnan eb fb (fpBits s f b))
      ∧ w.toNat = fpChosen eb fb s.me.fz big (fpBits s f a) (fpBits s f b)) := by
  refine finishFp_fpWrote s d _ ?_
  rw [hf.rounded_fMinMax]
  exact ⟨rfl, (BitVec.toNat_ofNat ..).trans (Nat.mod_eq_of_lt (hf.fpChosen_lt s a b _ big))⟩

/-- A comparison writes 1 where no operand is a NaN and its relation holds; NV as its kind raises it. -/
theorem ScalarFp.fpCompare_fpWrote (quiet : Bool) (g : FVal → FVal → Bool) (r : Bool)
    (hg : fpNan eb fb (fpBits s f a) = false → fpNan eb fb (fpBits s f b) = false → g (s.fx f a) (s.fx f b) = r) :
    FpWrote s (fpCompare f quiet g d a b s) d (fun w fl =>
      fl = onlyNv (if quiet then fpSnan eb fb (fpBits s f a) || fpSnan eb fb (fpBits s f b)
        else fpNan eb fb (fpBits s f a) || fpNan eb fb (fpBits s f b))
      ∧ w = if !fpNan eb fb (fpBits s f a) && !fpNan eb fb (fpBits s f b) && r then 1 else 0) := by
  refine ⟨_, _, ⟨rfl, rfl⟩, ?_⟩
  have hbool : (!(s.fx f a).isNan && !(s.fx f b).isNan && g (s.fx f a) (s.fx f b))
      = (!fpNan eb fb (fpBits s f a) && !fpNan eb fb (fpBits s f b) && r) := by
    rw [hf.isNan_fx, hf.isNan_fx]
    cases ha : fpNan eb fb (fpBits s f a)
    · cases hb : fpNan eb fb (fpBits s f b)
      · rw [hg ha hb]
      · rfl
    · rfl
  unfold fpCompare
  dsimp only
  rw [hbool, hf.isNan_fx, hf.isNan_fx, hf.isSnan_fx, hf.isSnan_fx]
  exact finish_answers s _ d _ (fun _ => rfl) rfl

/-- fclass writes the one-hot class of its operand, which it does not flush. -/
theorem ScalarFp.fpClass_wrote : Wrote s (fpClass f d a s) d (BitVec.twoPow 64 (fpClassBit eb fb (fpBits s f a))) := by
  refine wrote_of_eq s d _ _ ?_
  rw [hf.layout, ← fpBits, fClass_decode (f := ⟨eb, fb⟩) hf.eb_ge hf.fb_ge]
  exact BitVec.eq_of_toNat_eq (by simp)

/-- 03 R68 for one format, as the model's meanings of the six instructions give it. -/
theorem ScalarFp.comparesAs {fmin fmax feq flt fle fclass : Instr}
    (hmin : exec fmin s = fpMinMax f false d a b s) (hmax : exec fmax s = fpMinMax f true d a b s)
    (heq : exec feq s = fpCompare f true fEqual d a b s) (hlt : exec flt s = fpCompare f false fLess d a b s)
    (hle : exec fle s = fpCompare f false (fun x y => !fLess y x) d a b s) (hclass : exec fclass s = fpClass f d a s) :
    ComparesAs s d eb fb (fpBits s f a) (fpBits s f b) fmin fmax feq flt fle fclass := by
  unfold ComparesAs
  rw [hmin, hmax, heq, hlt, hle, hclass]
  have hupper (c : Bool) (x y : Nat) : (if (c != true) = true then x else y) = if c = true then y else x := by cases c <;> rfl
  refine ⟨?_, ?_, ?_, ?_, ?_, hf.fpClass_wrote s a d⟩
  · simpa only [fpChosen, Bool.bne_false] using hf.fpMinMax_fpWrote s a b d false
  · simpa only [fpChosen, hupper] using hf.fpMinMax_fpWrote s a b d true
  · refine hf.fpCompare_fpWrote s a b d true fEqual _ fun ha hb => ?_
    rw [fEqual, hf.isNan_fx, hf.isNan_fx, ha, hb, hf.fLess_fx s ha hb, hf.fLess_fx s hb ha]
    exact decide_eq_keys _ _
  · exact hf.fpCompare_fpWrote s a b d false fLess _ fun ha hb => hf.fLess_fx s ha hb
  · refine hf.fpCompare_fpWrote s a b d false _ _ fun ha hb => ?_
    rw [hf.fLess_fx s hb ha, ← decide_not, decide_eq_decide, Int.not_lt]
end

/-- Settles O13: FP64 and FP32 by one argument over exponent and fraction widths. -/
theorem floatCompareAndClass : Obligations.FloatCompareAndClass := by
  intro s d xa xb
  rw [← fpBits_fp32, ← fpBits_fp32, ← fpBits_fp64, ← fpBits_fp64]
  exact ⟨ScalarFp.fp64.comparesAs s xa xb d rfl rfl rfl rfl rfl rfl, ScalarFp.fp32.comparesAs s xa xb d rfl rfl rfl rfl rfl rfl⟩

end Sys2Proof.Proofs

namespace Sys2Proof.Proofs

open Machine Safety Laws

/-! Words by their fields (02 R32, R33, R38): what an S-form or an L-form word decodes to, whatever its H bits. -/

theorem decode_sWord (op : BitVec 8) (fn : BitVec 6) (d a b c : BitVec 5) (k : BitVec 3) (h : BitVec 6) (x : BitVec 19) :
    decode (sWord op fn d a b c k h x) = decodeS ⟨op, fn, d, a, b, c, k, x⟩ := by
  have hframe : frameOf (sWord op fn d a b c k h x) = .ok (.s ⟨op, fn, d, a, b, c, k, x⟩) := by
    simp (disch := omega) only [frameOf, sWord, slice_high, slice_low]
    simp
  rw [decode, hframe]

theorem decode_lWord (op : BitVec 8) (fn : BitVec 6) (d a : BitVec 5) (h : BitVec 6) (i : BitVec 32) :
    decode (lWord op fn d a h i) = decodeL ⟨op, fn, d, a, i⟩ := by
  have hframe : frameOf (lWord op fn d a h i) = .ok (.l ⟨op, fn, d, a, i⟩) := by
    simp (disch := omega) only [frameOf, lWord, slice_high, slice_low]
    simp
  rw [decode, hframe]

section
variable {w : Word} {i : Instr} {ok : Bool} {P : Prop} [Decidable P]

/-- A word whose OP and FN name an instruction runs as it where its must-be-zero fields are zero (02 R38 row 5). -/
theorem decodeFetched_mbz (h : decode w = mbz ok i) (hok : ok = true ↔ P) : decodeFetched w = if P then i else .illegalWord w := by
  rw [decodeFetched, h, mbz]
  by_cases hP : P
  · simp [hok.mpr hP, hP]
  · simp [mt hok.mp hP, hP]

theorem decodeFetched_error {r : Reject} (h : decode w = .error r) : decodeFetched w = .illegalWord w := by
  rw [decodeFetched, h]

/-- An OP that takes FN zero alone names an instruction there, and only there (02 R38). -/
theorem decodeFetched_fn0 {f : SFields} (h : decode w = fn0 f (mbz ok i)) (hok : f.fn = 0 ∧ ok = true ↔ P) :
    decodeFetched w = if P then i else .illegalWord w := by
  by_cases hfn : f.fn = 0
  · rw [fn0, if_pos hfn] at h
    exact decodeFetched_mbz h (by simpa [hfn] using hok)
  · rw [fn0, if_neg hfn] at h
    rw [decodeFetched_error h, if_neg (fun hP => hfn (hok.mpr hP).1)]

end

/-! The three-source forms (03 R62). -/

theorem decodeThree_error {f : SFields} (h0 : f.fn ≠ 0) (h1 : f.fn ≠ 1) : decodeThree f = .error .function := by
  unfold decodeThree
  split
  · exact absurd (BitVec.eq_of_toNat_eq ‹f.fn.toNat = 0›) h0
  · exact absurd (BitVec.eq_of_toNat_eq ‹f.fn.toNat = 1›) h1
  · rfl

/-- Settles O11. -/
theorem selectAndMultiplyAdd : Obligations.SelectAndMultiplyAdd := by
  refine ⟨fun s d xa xb xc => ⟨?_, finish_wrote s d _⟩, fun fn d a b c k h x => ?_⟩
  · refine wrote_of_eq s d _ _ ?_
    by_cases hc : s.getX xc = 0 <;> simp [hc]
  · have hdecode : decode (sWord 0x05 fn d a b c k h x) = decodeThree ⟨0x05, fn, d, a, b, c, k, x⟩ := decode_sWord ..
    by_cases h0 : fn = 0
    · subst h0
      rw [decodeFetched_mbz (P := k = 0 ∧ x = 0) hdecode (by simp)]
      simp
    by_cases h1 : fn = 1
    · subst h1
      rw [decodeFetched_mbz (P := k = 0 ∧ x = 0) hdecode (by simp)]
      simp
    · rw [decodeFetched_error (hdecode.trans (decodeThree_error h0 h1)), if_neg (fun h => h0 h.2.2), if_neg (fun h => h1 h.2.2)]

/-! Branches (03 R81). -/

/-- Displacements are in words. -/
theorem target_eq (s : State) (disp : Word) : s.target disp = s.me.pc + 8 * disp := by
  rw [State.target, BitVec.shiftLeft_eq_mul_twoPow, BitVec.mul_comm]; rfl

theorem branchIf_eq (s : State) (taken : Bool) (disp : Imm19) :
    branchIf s taken disp = .next { s with me := { s.me with pc := if taken then s.me.pc + 8 * disp.signExtend 64 else s.me.pc + 8 } } := by
  rw [branchIf, target_eq]
  cases taken <;> rfl

/-- An instruction does not issue while a register it names is pending (01 R21). -/
theorem not_issuable_of_pending {t : Thread} {i : Instr} {r : XReg} (hr : r ∈ xregs i) (h : t.pending r = true) : t.issuable i = false := by
  have hall : (xregs i).all (fun r => !t.pending r) = false := List.all_eq_false.mpr ⟨r, hr, by simp [h]⟩
  rw [Thread.issuable, hall, Bool.false_and, Bool.false_and]

/-- What a branch with a given condition does, and what it waits for. -/
theorem branch_runs {s : State} {xa xb : XReg} {disp : Imm19} {i : Instr} {taken : Bool} (hexec : exec i s = branchIf s taken disp)
    (hregs : xregs i = [xa, xb]) :
    exec i s = .next { s with me := { s.me with pc := if taken then s.me.pc + 8 * disp.signExtend 64 else s.me.pc + 8 } }
      ∧ ((s.me.pending xa || s.me.pending xb) = true → s.me.issuable i = false) := by
  refine ⟨hexec.trans (branchIf_eq ..), fun h => ?_⟩
  rcases Bool.or_eq_true_iff.mp h with h | h
  · exact not_issuable_of_pending (by simp [hregs]) h
  · exact not_issuable_of_pending (by simp [hregs]) h

/-- Settles O20. -/
theorem branches : Obligations.Branches := by
  refine ⟨fun s xa xb disp => ?_, fun fn d a b c k h x => ?_⟩
  · have hne : (s.getX xa != s.getX xb) = decide (s.getX xa ≠ s.getX xb) := by rw [decide_not]; rfl
    simp only [List.forall_mem_cons, List.not_mem_nil, false_implies, implies_true, and_true]
    exact ⟨branch_runs rfl rfl, branch_runs (hne ▸ rfl) rfl, branch_runs rfl rfl, branch_runs rfl rfl, branch_runs rfl rfl, branch_runs rfl rfl⟩
  · have hdecode : decode (sWord 0x50 fn d a b c k h x) = decodeBranch ⟨0x50, fn, d, a, b, c, k, x⟩ := decode_sWord ..
    have hform {i : Instr} (hi : decodeBranch ⟨0x50, fn, d, a, b, c, k, x⟩ = mbz (d == 0 && c == 0 && k == 0) i) :
        decodeFetched (sWord 0x50 fn d a b c k h x) = if d = 0 ∧ c = 0 ∧ k = 0 then i else .illegalWord (sWord 0x50 fn d a b c k h x) :=
      decodeFetched_mbz (hdecode.trans hi) (by simp [and_assoc])
    match hfn : fn.toNat with
    | 0 | 1 | 2 | 3 | 4 | 5 => exact hform (by simp only [decodeBranch, hfn])
    | n + 6 =>
      have herror : decodeBranch ⟨0x50, fn, d, a, b, c, k, x⟩ = .error .function := by simp [decodeBranch, hfn]
      exact (decodeFetched_error (hdecode.trans herror)).trans (ite_self _).symm

/-! Jumps (03 R82). -/

/-- A jump links and goes to its target. -/
theorem link_answers (s : State) (d : XReg) (pc : Word) : Answers s s (.next ((s.setX d (s.me.pc + 8)).setPc pc)) pc d (s.me.pc + 8) :=
  ⟨_, rfl, rfl, fun r => getX_setX s.me d _ r, by simp only [State.setPc, State.setX]; rw [setX_only_x]⟩

theorem execJal_answers (s : State) (d : XReg) (i : Imm19) :
    Answers s s (execJal d i s) (s.me.pc + 8 * i.signExtend 64) d (s.me.pc + 8) := by
  rw [execJal, target_eq]; exact link_answers ..

theorem execJalLong_answers (s : State) (d : XReg) (i : Imm32) :
    Answers s s (execJalLong d i s) (s.me.pc + 8 * i.signExtend 64) d (s.me.pc + 8) := by
  rw [execJalLong, target_eq]; exact link_answers ..

theorem execJalr_aligned {s : State} {a : XReg} {i : Imm19} (d : XReg) (h : (s.getX a + i.signExtend 64).toNat % 8 = 0) :
    Answers s s (execJalr d a i s) (s.getX a + i.signExtend 64) d (s.me.pc + 8) := by
  have hjump : execJalr d a i s = .next ((s.setX d (s.me.pc + 8)).setPc (s.getX a + i.signExtend 64)) := if_pos h
  rw [hjump]; exact link_answers ..

theorem execJalr_misaligned {s : State} {a : XReg} {i : Imm19} (d : XReg) (h : (s.getX a + i.signExtend 64).toNat % 8 ≠ 0) :
    execJalr d a i s = trapA s cFetchAlign 0 (s.getX a + i.signExtend 64) := if_neg h

/-- The one L-form of OP 0x51 (02 R33). -/
theorem decodeL_jal (fn : BitVec 6) (d a : BitVec 5) (i : BitVec 32) :
    decodeL ⟨0x51, fn, d, a, i⟩ = if fn = 0 then mbz (a == 0) (.jalLong d i) else .error .function := by
  split
  · subst fn; rfl
  · have hfn : fn.toNat ≠ 0 := fun h => ‹fn ≠ 0› (BitVec.eq_of_toNat_eq h)
    simp [decodeL, hfn]

/-- Settles O21. -/
theorem jumps : Obligations.Jumps := by
  refine ⟨fun s d xa i j => ⟨execJal_answers s d i, execJalLong_answers s d j, execJalr_aligned d, fun ht hs => ?_⟩,
    fun fn d a b c k h x i => ⟨?_, ?_, ?_⟩⟩
  · have htrap : exec (.jalr d xa i) s = trapA s cFetchAlign 0 (s.getX xa + i.signExtend 64) := execJalr_misaligned d ht
    rw [htrap]
    exact trapA_trapped s hs ..
  · exact decodeFetched_fn0 (decode_sWord ..) (by simp [and_assoc])
  · have hdecode := (decode_lWord 0x51 fn d a h i).trans (decodeL_jal fn d a i)
    by_cases hfn : fn = 0
    · rw [if_pos hfn] at hdecode
      exact decodeFetched_mbz hdecode (by simp [hfn])
    · rw [if_neg hfn] at hdecode
      rw [decodeFetched_error hdecode, if_neg (fun h => hfn h.1)]
  · exact decodeFetched_fn0 (decode_sWord ..) (by simp [and_assoc])

end Sys2Proof.Proofs

namespace Sys2Proof.Proofs

open Machine Safety Laws

/-! The software trap and the words of OP 0x60 (04 R102, R103). -/

theorem decodeTrap_error {f : SFields} (h0 : f.fn ≠ 0) (h1 : f.fn ≠ 1) : decodeTrap f = .error .function := by
  unfold decodeTrap
  split
  · exact absurd (BitVec.eq_of_toNat_eq ‹f.fn.toNat = 0›) h0
  · exact absurd (BitVec.eq_of_toNat_eq ‹f.fn.toNat = 1›) h1
  · rfl

/-- The bits of X above a 12-bit immediate are zero exactly where X is below 2^12. -/
theorem high_bits_zero_iff (x : BitVec 19) : x.extractLsb' 12 7 = 0#7 ↔ x.toNat < 4096 := by
  rw [← BitVec.toNat_inj, BitVec.extractLsb'_toNat, Nat.shiftRight_eq_div_pow, BitVec.toNat_ofNat]
  have := x.isLt
  omega

/-- Settles O27: the trap is the access processor's own trap, and OP 0x60 has two functions. -/
theorem softwareTrap : Obligations.SoftwareTrap := by
  refine ⟨fun s imm hs => trapA_trapped s hs cSoftware imm 0, fun fn d a b c k h x => ?_, by decide⟩
  dsimp only
  have hdecode : decode (sWord 0x60 fn d a b c k h x) = decodeTrap ⟨0x60, fn, d, a, b, c, k, x⟩ := decode_sWord ..
  by_cases h0 : fn = 0
  · subst h0
    rw [decodeFetched_mbz (P := (d = 0 ∧ a = 0 ∧ b = 0 ∧ c = 0 ∧ k = 0) ∧ x.toNat < 4096) hdecode
      (by simp [← high_bits_zero_iff, and_assoc]), ← BitVec.setWidth_eq_extractLsb' (by decide)]
    simp
  by_cases h1 : fn = 1
  · subst h1
    rw [decodeFetched_mbz (P := (d = 0 ∧ a = 0 ∧ b = 0 ∧ c = 0 ∧ k = 0) ∧ x = 0) hdecode (by simp [and_assoc])]
    simp
  · rw [decodeFetched_error (hdecode.trans (decodeTrap_error h0 h1)), if_neg (fun h => h0 h.2.1), if_neg (fun h => h1 h.2.1)]

end Sys2Proof.Proofs
